-- ==== Sys2Proof/Word.lean ====
section
/-!
DEFINITION. The widths of the block's ports and registers (00_scope.md R3; 30_encoding.md R55, R56).
-/
namespace Sys2Proof

/-- `W_ARG`: the width of the argument fields `A` and `V` of a command word (R3, R56). -/
abbrev wArg : Nat := 16

/-- `W_BAUD`: the width of the `BAUD` register and of the rate of a `SinkInit` (R3, R23). -/
abbrev wBaud : Nat := 32

/-- One byte of a frame (R4, R6). -/
abbrev Byte := BitVec 8

/-- A baud rate, as `BAUD`, `cfg_baud` and `snk_rate` hold it (R23, R55). -/
abbrev Rate := BitVec wBaud

/-- A command word (R56). -/
abbrev CmdWord := BitVec 40

end Sys2Proof
end

