-- ==== Sys2Proof/Syntax.lean ====
section
/-!
DEFINITION. The command set (00_scope.md R2): one constructor for each row of spec/opcode_table.json.
Operands are unsigned naturals, as 00_scope.md R5 reads every field of a command word; that an operand fits its
16-bit field is Sys2Proof/WellFormed.lean's check.
-/
namespace Sys2Proof

/-- The eight operations of R2, with the operands R57 and R73 give each, in the order of the source's signatures. -/
inductive Instr where
  /-- `configureServo id, en, fwd, range` (R92). -/
  | configureServo (id : Nat) (en fwd : Bool) (range : Nat)
  /-- `setSpeed id, speed` (R88). -/
  | setSpeed (id speed : Nat)
  /-- `setPosition id, position` (R89). -/
  | setPosition (id position : Nat)
  /-- `setPositionAbsolute id, position` (R90). -/
  | setPositionAbsolute (id position : Nat)
  /-- `setNeutral id, position` (R91). -/
  | setNeutral (id position : Nat)
  /-- `setServoNumberBaseNumber base` (R108). -/
  | setServoNumberBaseNumber (base : Nat)
  /-- `blinkServoNumberBaseNumber` (R109). -/
  | blinkServoNumberBaseNumber
  /-- `isValidServoId id` (R110). -/
  | isValidServoId (id : Nat)
deriving DecidableEq, Repr

end Sys2Proof
end

