-- ==== Sys2Proof/WellFormed.lean ====
section
/-!
DEFINITION. Which terms of Instr a command word can carry: each operand fits its field (30_encoding.md R56, R73).
-/
namespace Sys2Proof

/-- An operand fits a `W_ARG`-bit field: it is "below `2^W_ARG` = 65536" (R73). -/
def fitsArg (v : Nat) : Bool := decide (v < 2 ^ wArg)

/-- Every operand fits its field of the command word (R56, R57). The value ranges of the commands are NOT checked here:
an out-of-range value is a word the block itself rejects (R73). -/
def Instr.wf : Instr → Bool
  | .configureServo id _ _ range => fitsArg id && fitsArg range
  | .setSpeed id speed => fitsArg id && fitsArg speed
  | .setPosition id position => fitsArg id && fitsArg position
  | .setPositionAbsolute id position => fitsArg id && fitsArg position
  | .setNeutral id position => fitsArg id && fitsArg position
  | .setServoNumberBaseNumber base => fitsArg base
  | .blinkServoNumberBaseNumber => true
  | .isValidServoId id => fitsArg id

end Sys2Proof
end

