-- ==== Sys2Proof/Decode.lean ====
section
/-!
DEFINITION. The command word: its fields, its decoder, its encoder and the command map (30_encoding.md R56 to R61).
Decoding reads no state and is total (R61).
-/
namespace Sys2Proof

/-- Why a word or a command is given no meaning (60_exceptions.md R118). None of them is hardware behaviour: each marks a
case the source does not define, and stopping there is safe (it errs toward unprovable). -/
inductive RefuseReason where
  /-- `OP` is 0x2, 0x6, 0x7 or 0xB to 0xF; raised by the decoder (R59). Safe. -/
  | reservedOp
  /-- A field the operation does not use, or `RSV`, is nonzero; raised by the decoder (R60). Safe. -/
  | nonzeroUnusedField
  /-- `setSpeed` with a valid id and speed > 127, or `setPosition` with a valid id and position > 255 (R88, R89). Safe. -/
  | operandOutOfContract
  /-- The parameter record breaks a constraint of R3: the machine is not instantiated. Safe. -/
  | badParameters
deriving DecidableEq, Repr

/-- `v[hi:lo]`: the unsigned value of bits `hi` down to `lo` of `v` (00_scope.md R4). -/
def bitsOf (v hi lo : Nat) : Nat := v / 2 ^ lo % 2 ^ (hi + 1 - lo)

/-- Field `OP` of a command word (R56). -/
def opOf (w : CmdWord) : Nat := bitsOf w.toNat 39 36

/-- Field `EN` of a command word (R56; 1 = true). -/
def enOf (w : CmdWord) : Bool := bitsOf w.toNat 35 35 == 1

/-- Field `FWD` of a command word (R56; 1 = true). -/
def fwdOf (w : CmdWord) : Bool := bitsOf w.toNat 34 34 == 1

/-- Field `RSV` of a command word (R56), zero for every operation (R57). -/
def rsvOf (w : CmdWord) : Nat := bitsOf w.toNat 33 32

/-- Fields `EN`, `FWD` and `RSV` together: the second hexadecimal digit `E` of a written word (R56). -/
def flagsOf (w : CmdWord) : Nat := bitsOf w.toNat 35 32

/-- Field `A` of a command word (R56). -/
def argA (w : CmdWord) : Nat := bitsOf w.toNat 31 16

/-- Field `V` of a command word (R56). -/
def argV (w : CmdWord) : Nat := bitsOf w.toNat 15 0

/-- The instruction where a condition on the unused fields holds, and the refusal of R60 where it does not. -/
def whenUnusedZero (unusedZero : Bool) (i : Instr) : Except RefuseReason Instr :=
  if unusedZero then .ok i else .error .nonzeroUnusedField

/-- The decoder: the operation `OP` selects (R58) with the fields R57 gives it; a reserved `OP` (R59) and a nonzero unused
field (R60) are refused by name. -/
def decode (w : CmdWord) : Except RefuseReason Instr :=
  match opOf w with
  | 0x0 => whenUnusedZero (rsvOf w == 0) (.configureServo (argA w) (enOf w) (fwdOf w) (argV w))
  | 0x1 => whenUnusedZero (flagsOf w == 0) (.setSpeed (argA w) (argV w))
  | 0x3 => whenUnusedZero (flagsOf w == 0) (.setPosition (argA w) (argV w))
  | 0x4 => whenUnusedZero (flagsOf w == 0) (.setPositionAbsolute (argA w) (argV w))
  | 0x5 => whenUnusedZero (flagsOf w == 0) (.setNeutral (argA w) (argV w))
  | 0x8 => whenUnusedZero (flagsOf w == 0 && argV w == 0) (.setServoNumberBaseNumber (argA w))
  | 0x9 => whenUnusedZero (flagsOf w == 0 && argA w == 0 && argV w == 0) .blinkServoNumberBaseNumber
  | 0xA => whenUnusedZero (flagsOf w == 0 && argV w == 0) (.isValidServoId (argA w))
  | _ => .error .reservedOp

/-- The word written `O E AAAA VVVV` (R56). -/
def mkWord (op e a v : Nat) : CmdWord :=
  BitVec.ofNat 40 (op * 2 ^ 36 + e * 2 ^ 32 + a * 2 ^ 16 + v)

/-- Digit `E` of `configureServo`'s word: `E = EN·8 + FWD·4 + RSV` with `RSV` = 0 (R56). -/
def flagDigit (en fwd : Bool) : Nat := en.toNat * 8 + fwd.toNat * 4

/-- The word of a well-formed instruction (R57, R58, R73). -/
def encode : Instr → CmdWord
  | .configureServo id en fwd range => mkWord 0x0 (flagDigit en fwd) id range
  | .setSpeed id speed => mkWord 0x1 0 id speed
  | .setPosition id position => mkWord 0x3 0 id position
  | .setPositionAbsolute id position => mkWord 0x4 0 id position
  | .setNeutral id position => mkWord 0x5 0 id position
  | .setServoNumberBaseNumber base => mkWord 0x8 0 base 0
  | .blinkServoNumberBaseNumber => mkWord 0x9 0 0 0
  | .isValidServoId id => mkWord 0xA 0 id 0

/-- A row of the command map of R58: the operation's name, its match and its mask. -/
structure Row where
  name : String
  pattern : CmdWord
  mask : CmdWord
deriving DecidableEq, Repr

/-- The row of the command map (R58; spec/opcode_table.json) that gives each instruction. -/
def rowOf : Instr → Row
  | .configureServo .. => ⟨"configureServo", 0x0000000000#40, 0xF300000000#40⟩
  | .setSpeed .. => ⟨"setSpeed", 0x1000000000#40, 0xFF00000000#40⟩
  | .setPosition .. => ⟨"setPosition", 0x3000000000#40, 0xFF00000000#40⟩
  | .setPositionAbsolute .. => ⟨"setPositionAbsolute", 0x4000000000#40, 0xFF00000000#40⟩
  | .setNeutral .. => ⟨"setNeutral", 0x5000000000#40, 0xFF00000000#40⟩
  | .setServoNumberBaseNumber .. => ⟨"setServoNumberBaseNumber", 0x8000000000#40, 0xFF0000FFFF#40⟩
  | .blinkServoNumberBaseNumber => ⟨"blinkServoNumberBaseNumber", 0x9000000000#40, 0xFFFFFFFFFF#40⟩
  | .isValidServoId .. => ⟨"isValidServoId", 0xA000000000#40, 0xFF0000FFFF#40⟩

/-- The command map of R58, in its order (the reserved rows left out). -/
def commandMap : List Row :=
  [rowOf (.configureServo 0 false false 0), rowOf (.setSpeed 0 0), rowOf (.setPosition 0 0),
   rowOf (.setPositionAbsolute 0 0), rowOf (.setNeutral 0 0), rowOf (.setServoNumberBaseNumber 0),
   rowOf .blinkServoNumberBaseNumber, rowOf (.isValidServoId 0)]

/-- "A word `w` selects a row iff `w AND mask = match`" (R58). -/
def Row.selects (r : Row) (w : CmdWord) : Bool := w &&& r.mask == r.pattern

/-- The `OP` values of reserved encodings (R59). -/
def reservedOps : List Nat := [0x2, 0x6, 0x7, 0xB, 0xC, 0xD, 0xE, 0xF]

/-- The host's probe: the instruction the decoder reads from a word whose bits are numbered as spec/opcode_table.json
numbers them. A command word is one 40-bit word (R56), so its bit numbers are the table's own. -/
def decodeTableWord (nbits w : Nat) : Option Instr :=
  if w % 2 ^ nbits < 2 ^ 40 then (decode (BitVec.ofNat 40 (w % 2 ^ nbits))).toOption else none

end Sys2Proof
end

