-- ==== Sys2Proof/Config.lean ====
section
/-!
DEFINITION. What an implementation fixes (the parameter record `P` of 00_scope.md R3) and the free values: what the spec
leaves unspecified and dead (10_state.md R30; 93_implementation_defined.md). The binding RB0 and the constraints on `P`
stand in Sys2Proof/Machine/Params.lean.
-/
namespace Sys2Proof

/-- `SPLIT_ORDER`: which part of a two-part value is sent first (R43, R87). -/
inductive SplitOrder where
  | highFirst
  | lowFirst
deriving DecidableEq, Repr

/-- `ERR_BASE_NUMBER` is -2 or -3 (R72; 92_eei_decisions.md D13; 90_conflicts.md C4). -/
inductive BaseError where
  | minusTwo
  | minusThree
deriving DecidableEq, Repr

/-- `BASE_MAX` is 16, the range the source calls authoritative, and can be bound to 15, the device's documentation
(R106; 92_eei_decisions.md D14; 90_conflicts.md C7). -/
inductive BaseBound where
  | sixteen
  | fifteen
deriving DecidableEq, Repr

/-- The parameter record `P` (R3): the rows marked OPEN, and `BASE_MAX`, which R106 keeps as a parameter. -/
structure Params where
  /-- `ERR_BASE_NUMBER`. -/
  errBaseNumber : BaseError
  /-- `BASE_MAX`. -/
  baseMax : BaseBound
  /-- `SYNC_BYTE`: byte 0 of every frame (R65). -/
  syncByte : Byte
  /-- `DEV_SERVO`: byte 1 of every servo-targeted frame (R63). -/
  devServo : Byte
  /-- `DEV_BASE`: byte 1 of every broadcast frame (R64). -/
  devBase : Byte
  /-- `CMD_SET_PARAMETERS`: byte 2 of `configureServo` (R65). -/
  cmdSetParameters : Byte
  /-- `CMD_SET_SPEED`: byte 2 of `setSpeed` (R65). -/
  cmdSetSpeed : Byte
  /-- `CMD_SET_POSITION_8BIT`: byte 2 of `setPosition` (R65). -/
  cmdSetPosition8Bit : Byte
  /-- `CMD_SET_POSITION_ABS`: byte 2 of `setPositionAbsolute` (R65). -/
  cmdSetPositionAbs : Byte
  /-- `CMD_SET_NEUTRAL`: byte 2 of `setNeutral` (R65). -/
  cmdSetNeutral : Byte
  /-- `BLINK_CODE`: byte 2 of `blinkServoNumberBaseNumber` (R64). -/
  blinkCode : Byte
  /-- `SPLIT_ORDER` (R43). -/
  splitOrder : SplitOrder
  /-- `CFG_EN_POS`: the bit of the configure data byte that carries `enabled` (R67). -/
  cfgEnPos : Nat
  /-- `CFG_DIR_POS`: the bit of the configure data byte that carries the direction (R67). -/
  cfgDirPos : Nat
  /-- `CFG_RANGE_LSB`: the lowest bit of the 5-bit range field of the configure data byte (R67). -/
  cfgRangeLsb : Nat
  /-- `EN_ON_BIT`: the value of bit `CFG_EN_POS` when `enabled` is true (R67). -/
  enOnBit : Bool
  /-- `FWD_DIR_BIT`: the value of bit `CFG_DIR_POS` when `forwardDirection` is true (R67). -/
  fwdDirBit : Bool
deriving DecidableEq, Repr

/-- A response (R71): a status code, the answer of `isValidServoId`, or completion without a status. -/
inductive Response where
  /-- `STATUS c`: every command but `blinkServoNumberBaseNumber` and `isValidServoId`. -/
  | status (code : Int)
  /-- `BOOL t`: `isValidServoId`. -/
  | bool (answer : Bool)
  /-- `DONE`: `blinkServoNumberBaseNumber`. -/
  | done
deriving DecidableEq, Repr, Inhabited

/-- FREE VALUE: what `FRAME` holds where R30 and 93_implementation_defined.md leave it unspecified; the n-th time it is
left so. Cut to six bytes where it is used, since `FRAME` is a list of 0 to 6 bytes. -/
opaque Config.freeFrame : Nat → List Byte

/-- FREE VALUE: what `IDX` holds where it is left unspecified. Bounded by the length of `FRAME` where it is used. -/
opaque Config.freeIdx : Nat → Nat

/-- FREE VALUE: what `PEND` holds where it is left unspecified. -/
opaque Config.freePend : Nat → Response

end Sys2Proof
end

