-- ==== Sys2Proof/Machine/Params.lean ====
section
/-!
DEFINITION. The settled limits of 00_scope.md R3, the constraints the parameter record must satisfy, and the reference
binding RB0.
-/
namespace Sys2Proof

/-- `BAUD_DEFAULT`: the baud rate when the host supplies none at construction (R3, R136). -/
def baudDefault : Rate := 40000#32

/-- `SERVO_ID_LIMIT` (R3, R85). -/
abbrev servoIdLimit : Nat := 128

/-- `SPEED_MAX` (R3, R88). -/
abbrev speedMax : Nat := 127

/-- `POS8_MAX` (R3, R89). -/
abbrev pos8Max : Nat := 255

/-- `ABS_MIN` (R3, R90). -/
abbrev absMin : Nat := 500

/-- `ABS_MAX` (R3, R90). -/
abbrev absMax : Nat := 5500

/-- `RANGE_MAX` (R3, R92). -/
abbrev rangeMax : Nat := 31

/-- The number `BASE_MAX` stands for (R106). -/
def BaseBound.toNat : BaseBound → Nat
  | .sixteen => 16
  | .fifteen => 15

/-- The number `ERR_BASE_NUMBER` stands for (R72). -/
def BaseError.toInt : BaseError → Int
  | .minusTwo => -2
  | .minusThree => -3

/-- The five command bytes `CMD_*` (R65). -/
def Params.cmdBytes (p : Params) : List Byte :=
  [p.cmdSetParameters, p.cmdSetSpeed, p.cmdSetPosition8Bit, p.cmdSetPositionAbs, p.cmdSetNeutral]

/-- The seven bit positions of the configure data byte that carry a value (R3, R67). -/
def Params.cfgPositions (p : Params) : List Nat :=
  [p.cfgEnPos, p.cfgDirPos, p.cfgRangeLsb, p.cfgRangeLsb + 1, p.cfgRangeLsb + 2, p.cfgRangeLsb + 3, p.cfgRangeLsb + 4]

/-- The constraints of R3; "or the model refuses to be instantiated" (`BadParameters`, R118). -/
def Params.valid (p : Params) : Bool :=
  p.syncByte.msb
    && ([p.devServo, p.devBase, p.blinkCode] ++ p.cmdBytes).all (fun b => !b.msb)
    && decide (p.devServo ≠ p.devBase)
    && decide p.cmdBytes.Nodup
    && p.cfgPositions.all (fun k => decide (k ≤ 6))
    && decide p.cfgPositions.Nodup
    && decide (13 ≤ wArg) && decide (16 ≤ wBaud)

/-- The reference binding RB0 of the OPEN parameters (R3, R65, R67). PRESUMED: the spec marks these values as general
knowledge, not the source's (93_implementation_defined.md); a claim that rests on one names RB0. -/
def Params.rb0 : Params where
  errBaseNumber := .minusTwo
  baseMax := .sixteen
  syncByte := 0x80#8
  devServo := 0x01#8
  devBase := 0x02#8
  cmdSetParameters := 0x00#8
  cmdSetSpeed := 0x01#8
  cmdSetPosition8Bit := 0x03#8
  cmdSetPositionAbs := 0x04#8
  cmdSetNeutral := 0x05#8
  blinkCode := 0x10#8
  splitOrder := .highFirst
  cfgEnPos := 6
  cfgDirPos := 5
  cfgRangeLsb := 0
  enOnBit := true
  fwdDirBit := false

end Sys2Proof
end

