-- ==== Sys2Proof/Machine/Operands.lean ====
section
/-!
DEFINITION. The range validator's checks and the frame packer's bytes (40_servo_commands.md R85 to R87; 30_encoding.md R63,
R64, R66, R67; 41_broadcast_and_query.md R105, R106). Every check is on the full operand; every byte is built from an
operand its check has bounded (R93).
-/
namespace Sys2Proof

/-- `servoIdValid(id) := id < SERVO_ID_LIMIT` (R85). -/
def servoIdValid (id : Nat) : Bool := decide (id < servoIdLimit)

/-- `baseValid(b) := b ≤ BASE_MAX` (R106). -/
def baseValid (p : Params) (base : Nat) : Bool := decide (base ≤ p.baseMax.toNat)

/-- The position bounds of `setPositionAbsolute` and `setNeutral`, inclusive (R90, R91). -/
def absValid (position : Nat) : Bool := decide (absMin ≤ position) && decide (position ≤ absMax)

/-- `zext_8(v)`: `v` as a byte; used only where `v < 256` (R5). -/
def zext8 (v : Nat) : Byte := BitVec.ofNat 8 v

/-- The two-part splitter: the parts in the order `SPLIT_ORDER` (R87, R43). -/
def split2 (p : Params) (hi lo : Nat) : List Byte :=
  match p.splitOrder with
  | .highFirst => [zext8 hi, zext8 lo]
  | .lowFirst => [zext8 lo, zext8 hi]

/-- The data bytes of `setPosition`: bit 7 and bits 6:0 of the position (R66, R89). -/
def splitPosition8 (p : Params) (position : Nat) : List Byte :=
  split2 p (bitsOf position 7 7) (bitsOf position 6 0)

/-- The data bytes of `setPositionAbsolute` and `setNeutral`: bits 13:7 and bits 6:0 of the position (R66, R90, R91). -/
def splitPositionAbs (p : Params) (position : Nat) : List Byte :=
  split2 p (bitsOf position 13 7) (bitsOf position 6 0)

/-- The byte whose bit `pos` is `b` and whose other bits are 0. -/
def bitAt (pos : Nat) (b : Bool) : Byte := BitVec.ofNat 8 b.toNat <<< pos

/-- The configure data byte: the enable bit, the direction bit and the 5-bit range field at their positions, with the
polarities `EN_ON_BIT` and `FWD_DIR_BIT`; every other bit 0 (R67). -/
def cfgByte (p : Params) (en fwd : Bool) (range : Nat) : Byte :=
  bitAt p.cfgEnPos (if en then p.enOnBit else !p.enOnBit)
    ||| bitAt p.cfgDirPos (if fwd then p.fwdDirBit else !p.fwdDirBit)
    ||| zext8 (bitsOf range 4 0) <<< p.cfgRangeLsb

/-- The servo-targeted frame packer, format S (R86, R63). -/
def sFrame (p : Params) (cmd : Byte) (id : Nat) (data : List Byte) : List Byte :=
  [p.syncByte, p.devServo, cmd, zext8 id] ++ data

/-- The broadcast frame packer, format B (R105, R64). -/
def bFrame (p : Params) (x : Byte) : List Byte := [p.syncByte, p.devBase, x]

/-- The length a receiver finds from the first three bytes of a frame (R69): 3 after `DEV_BASE`; after `DEV_SERVO`, 5 or 6
by the command byte; none where the bytes begin no frame this block emits. -/
def headerLength (p : Params) : List Byte → Option Nat
  | b0 :: b1 :: b2 :: _ =>
    if b0.msb then
      if b1 = p.devBase then some 3
      else if b1 = p.devServo then
        if b2 = p.cmdSetParameters ∨ b2 = p.cmdSetSpeed then some 5
        else if b2 = p.cmdSetPosition8Bit ∨ b2 = p.cmdSetPositionAbs ∨ b2 = p.cmdSetNeutral then some 6
        else none
      else none
    else none
  | _ => none

end Sys2Proof
end

