-- ==== Sys2Proof/Machine/Flags.lean ====
section
/-!
DEFINITION. The results of commands. The block has no status flags or condition codes (10_state.md R22); what a command
tells the host is one response, and its status codes and its encoding on the response port are here (30_encoding.md R71, R72).
-/
namespace Sys2Proof

/-- The status of a command whose frame was handed to the sink (R72). -/
def statusOk : Int := 0

/-- `InvalidServoId` (R72, R117). -/
def errServoId : Int := -2

/-- `InvalidPosition` (R72, R117). -/
def errPosition : Int := -3

/-- `InvalidRange` (R72, R117). -/
def errRange : Int := -3

/-- `InvalidBaseNumber`: the parameter `ERR_BASE_NUMBER` (R72, R117). -/
def errBaseNumber (p : Params) : Int := p.errBaseNumber.toInt

/-- `rsp_kind` (R71); 0b11 is never driven. -/
def Response.kind : Response → BitVec 2
  | .status _ => 0b00#2
  | .bool _ => 0b01#2
  | .done => 0b10#2

/-- `rsp_data` (R71, R72): a status in 8-bit two's complement, a Boolean as 0x01 or 0x00, 0x00 for `DONE`. -/
def Response.data : Response → Byte
  | .status c => BitVec.ofInt 8 c
  | .bool t => if t then 0x01#8 else 0x00#8
  | .done => 0x00#8

end Sys2Proof
end

