-- ==== Sys2Proof/Machine/State.lean ====
section
/-!
DEFINITION. The state of the machine (10_state.md, the state record; 30_encoding.md R55; 00_scope.md R8, R9), as plain data,
and the state right after reset. The block has no memory (20_memory.md R40), no register file (R20) and no program counter
(R21), so State holds none.
-/
namespace Sys2Proof.Machine

/-- `PHASE`: the framer's sequencing phase (R26). -/
inductive Phase where
  /-- `RESET`: `rst` is asserted (R135). -/
  | reset
  /-- `INIT`: `SinkInit(BAUD)` is offered (R136). -/
  | init
  /-- `IDLE`: the command port accepts a word (R26). -/
  | idle
  /-- `BUSY`: a frame is being emitted (R26). -/
  | busy
deriving DecidableEq, Repr

/-- An event the sink has accepted (R7, R41). -/
inductive SinkEvent where
  /-- `SinkInit(r)`: the one-time initialisation at rate `r`. -/
  | sinkInit (rate : Rate)
  /-- `Emit(b)`: one byte. -/
  | emit (byte : Byte)
deriving DecidableEq, Repr

/-- A delivered response, tagged with the command it answers (R9): `cmd` = n says the n-th word accepted, from 1. -/
structure Answered where
  cmd : Nat
  rsp : Response
deriving DecidableEq, Repr

/-- A move of one of the agents of R8. The framer is the block; every other move is the environment's. -/
inductive Move where
  /-- The framer takes its next step, or holds where the spec gives it none. -/
  | framer
  /-- The platform asserts `rst` (R135, R139). -/
  | assertReset
  /-- The platform releases `rst` (R136). -/
  | releaseReset
  /-- The platform presents `cfg_baud_given` and `cfg_baud` (R141). -/
  | presentBaud (given : Bool) (rate : Rate)
  /-- The host offers a command word (R55). -/
  | hostOffer (word : CmdWord)
  /-- The sink drives `snk_ready` (R55). -/
  | sinkReady (ready : Bool)
deriving DecidableEq, Repr

/-- The machine stops with a fault on no path: "There is no fatal/unrecoverable internal error category; every failure is a
rejected call with no side effect" (R115), and there is no trap (R124). So no constructor. -/
inductive Fault where
deriving DecidableEq, Repr

/-- Why a step has no next state. -/
inductive Refusal where
  /-- Raised by `exec` for an instruction this model gives no meaning yet; none is left. Safe. -/
  | notModelled (mnemonic : String)
  /-- Raised by `step`: at a state whose refusal mark is set ("the block takes no further step", R7), with the mark's reason,
  and at a state whose parameter record breaks R3 (`badParameters`, R118). Safe. -/
  | refuse (reason : RefuseReason)
deriving DecidableEq, Repr

/-- The state of the machine. -/
structure State where
  /-- `P`, the parameter record (R3); no step writes it. -/
  params : Params
  /-- `BAUD` (R23). -/
  baud : Rate
  /-- `INIT_DONE` (R24). -/
  initDone : Bool
  /-- `PHASE` (R26). -/
  phase : Phase
  /-- `FRAME`: the frame being emitted; dead outside `BUSY` (R26, R27). -/
  frame : List Byte
  /-- `IDX`: the index of the next byte of `FRAME` to offer; dead outside `BUSY` (R26, R27). -/
  idx : Nat
  /-- `PEND`: the response to deliver after the last byte; dead outside `BUSY` (R26, R27). -/
  pend : Response
  /-- `REFUSED`: the model's refusal mark, set iff this is `some` reason of R118 (R7, R26). -/
  refused : Option RefuseReason
  /-- Input port `cfg_baud` (R55). -/
  cfgBaud : Rate
  /-- Input port `cfg_baud_given` (R55). -/
  cfgBaudGiven : Bool
  /-- The words the host has offered and the framer has not accepted, oldest first: `cmd_valid` says there is one, and
  `cmd_word` is the first (R55); the others are the host's own sequence (R21). -/
  offers : List CmdWord
  /-- Input port `snk_ready` (R55). -/
  snkReady : Bool
  /-- The agents' moves still to come, in order (the model's own field, for R8). -/
  script : List Move
  /-- The command words accepted so far, in order (R21, R47). -/
  taken : List CmdWord
  /-- The sink trace (R9). -/
  sinkTrace : List SinkEvent
  /-- The response trace (R9). -/
  rspTrace : List Answered
  /-- How many times `FRAME`, `IDX` and `PEND` were left unspecified (the model's own field, for the free values). -/
  freeCount : Nat
deriving DecidableEq, Repr

/-- The machine right after reset is asserted and before any step of the framer (R30), under RB0 (R3), with nothing
offered, nothing scripted and a sink that is ready (95_test_vectors.md L3). DESIGN CHOICE where the spec gives no value:
`FRAME`, `IDX`, `PEND`, the input ports and the model's own fields (the assumption log's rows 1, 4, 6, 7). -/
def State.reset : State where
  params := Params.rb0
  baud := baudDefault
  initDone := false
  phase := .reset
  frame := []
  idx := 0
  pend := .done
  refused := none
  cfgBaud := 0#32
  cfgBaudGiven := false
  offers := []
  snkReady := true
  script := []
  taken := []
  sinkTrace := []
  rspTrace := []
  freeCount := 0

end Sys2Proof.Machine
end

