-- ==== Sys2Proof/Machine/Ops.lean ====
section
/-!
DEFINITION. The named operations on the state: the primitives of 00_scope.md R7, the transitions of 10_state.md R26, the
reset sequence (70_reset_and_hazards.md R135 to R139) and the moves of the environment. The block has no memory and no
register file, so these are all that read or write its state.
-/
namespace Sys2Proof.Machine

/-- The outcome of a command (R11, R115): what the pure validator and packer compute, and the step relation performs. -/
inductive CmdOutcome where
  /-- `Reject(c)`: a validation error with status `c`. -/
  | reject (code : Int)
  /-- `Refuse(x)`: no meaning; the model's refusal mark. -/
  | refuse (reason : RefuseReason)
  /-- `Frame(f, r)`: the frame `f` is emitted, then the response `r`. -/
  | frame (bytes : List Byte) (rsp : Response)
  /-- `Answer(t)`: `isValidServoId` only. -/
  | answer (t : Bool)
deriving DecidableEq, Repr

/-! ### What a command's outcome does -/

/-- `Respond(...)`: deliver one response, for the command accepted last (R7, R9, R71). -/
def State.respond (s : State) (r : Response) : State :=
  { s with rspTrace := s.rspTrace ++ [⟨s.taken.length, r⟩] }

/-- `raise E(c)`: the only exception the block has. `Respond(STATUS, c)` and nothing else: no state is saved, no mode
changes, control goes nowhere, the phase stays (R7, R116, R124). There is nothing to return from. -/
def State.raise (s : State) (code : Int) : State := s.respond (.status code)

/-- `refuse(x)`: the refusal mark is set; no sink event, no response (R7, R26, R59). -/
def State.markRefused (s : State) (reason : RefuseReason) : State := { s with refused := some reason }

/-- `Frame(f, r)` at acceptance: `FRAME <- f, IDX <- 0, PEND <- r`, to `BUSY` (R26). -/
def State.startFrame (s : State) (f : List Byte) (r : Response) : State :=
  { s with phase := .busy, frame := f, idx := 0, pend := r }

/-- Perform an outcome in `IDLE` (R11, R26). -/
def State.perform (s : State) : CmdOutcome → State
  | .reject c => s.raise c
  | .refuse x => s.markRefused x
  | .frame f r => s.startFrame f r
  | .answer t => s.respond (.bool t)

/-! ### The framer's own transitions -/

/-- The largest length of `FRAME` (10_state.md, the state record; R68). -/
abbrev frameMax : Nat := 6

/-- `FRAME`, `IDX` and `PEND` become unspecified: free values within the fields' own ranges (R30, R135;
93_implementation_defined.md, "any value"). -/
def State.freeFrameFields (s : State) : State :=
  { s with
    frame := (Config.freeFrame s.freeCount).take frameMax
    idx := min (Config.freeIdx s.freeCount) ((Config.freeFrame s.freeCount).take frameMax).length
    pend := Config.freePend s.freeCount
    freeCount := s.freeCount + 1 }

/-- The sink accepts `SinkInit(BAUD)`: `INIT_DONE <- 1`, to `IDLE` (R26, R137). -/
def State.acceptInit (s : State) : State :=
  { s with sinkTrace := s.sinkTrace ++ [.sinkInit s.baud], initDone := true, phase := .idle }

/-- The sink accepts `Emit(b)`: `IDX <- IDX + 1` (R26). -/
def State.acceptByte (s : State) (b : Byte) : State :=
  { s with sinkTrace := s.sinkTrace ++ [.emit b], idx := s.idx + 1 }

/-- The response of the frame is delivered, to `IDLE`; `FRAME`, `IDX` and `PEND` are dead from here (R26, R27, R50). -/
def State.deliver (s : State) : State :=
  ({ s.respond s.pend with phase := .idle } : State).freeFrameFields

/-- The framer accepts the word at the command port (R26, R55). -/
def State.takeWord (s : State) (w : CmdWord) (rest : List CmdWord) : State :=
  { s with offers := rest, taken := s.taken ++ [w] }

/-! ### Reset and the other moves of the environment -/

/-- `rst` asserted, in any phase (R26, R135, R139): to `RESET` at once, `INIT_DONE` cleared, the frame, its index and its
response dropped. The traces keep what was accepted and delivered; `BAUD` and `REFUSED` are unchanged (R30). -/
def State.assertReset (s : State) : State :=
  ({ s with phase := .reset, initDone := false } : State).freeFrameFields

/-- `rst` released (R136): `BAUD` from `cfg_baud`, or 40000 where none is given, unchecked; to `INIT`. A release where `rst`
is not asserted changes nothing. -/
def State.releaseReset (s : State) : State :=
  match s.phase with
  | .reset =>
    { s with baud := (if s.cfgBaudGiven then s.cfgBaud else baudDefault), initDone := false, phase := .init }
  | _ => s

/-- The platform presents `cfg_baud_given` and `cfg_baud` (R55, R141). -/
def State.presentBaud (s : State) (given : Bool) (rate : Rate) : State :=
  { s with cfgBaudGiven := given, cfgBaud := rate }

/-- The host offers a word; it waits behind the words offered before it (R26, R128). -/
def State.hostOffer (s : State) (w : CmdWord) : State := { s with offers := s.offers ++ [w] }

/-- The sink drives `snk_ready` (R55). -/
def State.setSnkReady (s : State) (ready : Bool) : State := { s with snkReady := ready }

/-! ### Whose move it is -/

/-- The next move: the script's first; with an empty script the environment of 95_test_vectors.md L3 (reset is released,
then the framer moves whenever it can). -/
def State.nextMove (s : State) : Move :=
  match s.script with
  | m :: _ => m
  | [] => if s.phase = .reset then .releaseReset else .framer

/-- The script after the next move. -/
def State.popMove (s : State) : State := { s with script := s.script.tail }

/-- What a move of the environment does; the framer's own move is not one. -/
def State.envMove (s : State) : Move → State
  | .framer => s
  | .assertReset => s.assertReset
  | .releaseReset => s.releaseReset
  | .presentBaud given rate => s.presentBaud given rate
  | .hostOffer w => s.hostOffer w
  | .sinkReady ready => s.setSnkReady ready

/-! ### The ports, as functions of the state (R55) -/

/-- `rst`: asserted exactly in `RESET` (R135, R136). -/
def State.rst (s : State) : Bool := decide (s.phase = .reset)

/-- `cmd_ready`: the command port accepts a word only in `IDLE` with `INIT_DONE` = 1 (R26). DESIGN CHOICE (log row 19): after a
refused word, which never gets a response, it is 1 again, where R144 leaves the output open; the mark is not read. -/
def State.cmdReady (s : State) : Bool := decide (s.phase = .idle) && s.initDone

/-- `cmd_valid`. -/
def State.cmdValid (s : State) : Bool := !s.offers.isEmpty

/-- `cmd_word`, where `cmd_valid` = 1. -/
def State.cmdWord (s : State) : Option CmdWord := s.offers.head?

/-- `snk_init_valid`: `SinkInit(BAUD)` is offered in `INIT` (R136). -/
def State.snkInitValid (s : State) : Bool := decide (s.phase = .init)

/-- `snk_rate`, where `snk_init_valid` = 1. -/
def State.snkRate (s : State) : Rate := s.baud

/-- `snk_byte_valid`: a byte of `FRAME` is offered in `BUSY` while `IDX < len(FRAME)` (R26). -/
def State.snkByteValid (s : State) : Bool := decide (s.phase = .busy) && decide (s.idx < s.frame.length)

/-- `snk_byte`, where `snk_byte_valid` = 1. -/
def State.snkByte (s : State) : Option Byte := s.frame[s.idx]?

/-- The responses delivered on the way from `s` to `t` (what `rsp_valid` pulsed for in between, R55). -/
def rspBetween (s t : State) : List Answered := t.rspTrace.drop s.rspTrace.length

end Sys2Proof.Machine
end

