-- ==== Sys2Proof/Machine/Broadcast.lean ====
section
/-!
DEFINITION. The two broadcast commands and the query (41_broadcast_and_query.md R108 to R110). Each is a pure outcome of the
parameters and the operands (00_scope.md R11), and its meaning performs it.
-/
namespace Sys2Proof.Machine

/-- `setServoNumberBaseNumber` (R108). -/
def setServoNumberBaseNumberOutcome (p : Params) (base : Nat) : CmdOutcome :=
  if baseValid p base then .frame (bFrame p (zext8 base)) (.status statusOk) else .reject (errBaseNumber p)

/-- `blinkServoNumberBaseNumber`: the fixed broadcast frame, then `DONE` (R109). -/
def blinkServoNumberBaseNumberOutcome (p : Params) : CmdOutcome := .frame (bFrame p p.blinkCode) .done

/-- `isValidServoId`: the check of R85, answered (R110). -/
def isValidServoIdOutcome (id : Nat) : CmdOutcome := .answer (servoIdValid id)

/-- The meaning of `setServoNumberBaseNumber` (R108). -/
def execSetServoNumberBaseNumber (base : Nat) (s : State) : Host.Outcome State Fault Refusal :=
  .next (s.perform (setServoNumberBaseNumberOutcome s.params base))

/-- The meaning of `blinkServoNumberBaseNumber` (R109). -/
def execBlinkServoNumberBaseNumber (s : State) : Host.Outcome State Fault Refusal :=
  .next (s.perform (blinkServoNumberBaseNumberOutcome s.params))

/-- The meaning of `isValidServoId` (R110). -/
def execIsValidServoId (id : Nat) (s : State) : Host.Outcome State Fault Refusal :=
  .next (s.perform (isValidServoIdOutcome id))

end Sys2Proof.Machine
end

