-- ==== Sys2Proof/Machine/Servo.lean ====
section
/-!
DEFINITION. The five servo-targeted commands (40_servo_commands.md R88 to R92). Each is a pure outcome of the parameters and
the operands (00_scope.md R11), and its meaning performs it.
-/
namespace Sys2Proof.Machine

/-- The servo-id check comes first: `InvalidServoId` whatever the other operands hold (R85, R119). -/
def servoChecked (id : Nat) (next : CmdOutcome) : CmdOutcome :=
  if servoIdValid id then next else .reject errServoId

/-- The accepted servo-targeted command: its frame, then `STATUS 0` (R63, R86). -/
def servoFrame (p : Params) (cmd : Byte) (id : Nat) (data : List Byte) : CmdOutcome :=
  .frame (sFrame p cmd id data) (.status statusOk)

/-- The command of an absolute position, with the bounds and the split R90 and R91 share. -/
def absOutcome (p : Params) (cmd : Byte) (id position : Nat) : CmdOutcome :=
  servoChecked id <|
    if absValid position then servoFrame p cmd id (splitPositionAbs p position) else .reject errPosition

/-- `setSpeed` (R88). -/
def setSpeedOutcome (p : Params) (id speed : Nat) : CmdOutcome :=
  servoChecked id <|
    if speed ≤ speedMax then servoFrame p p.cmdSetSpeed id [zext8 speed] else .refuse .operandOutOfContract

/-- `setPosition` (R89). -/
def setPositionOutcome (p : Params) (id position : Nat) : CmdOutcome :=
  servoChecked id <|
    if position ≤ pos8Max then servoFrame p p.cmdSetPosition8Bit id (splitPosition8 p position)
    else .refuse .operandOutOfContract

/-- `setPositionAbsolute` (R90). -/
def setPositionAbsoluteOutcome (p : Params) (id position : Nat) : CmdOutcome :=
  absOutcome p p.cmdSetPositionAbs id position

/-- `setNeutral` (R91). -/
def setNeutralOutcome (p : Params) (id position : Nat) : CmdOutcome := absOutcome p p.cmdSetNeutral id position

/-- `configureServo` (R92). -/
def configureServoOutcome (p : Params) (id : Nat) (en fwd : Bool) (range : Nat) : CmdOutcome :=
  servoChecked id <|
    if range ≤ rangeMax then servoFrame p p.cmdSetParameters id [cfgByte p en fwd range] else .reject errRange

/-- The meaning of `configureServo` (R92). -/
def execConfigureServo (id : Nat) (en fwd : Bool) (range : Nat) (s : State) : Host.Outcome State Fault Refusal :=
  .next (s.perform (configureServoOutcome s.params id en fwd range))

/-- The meaning of `setSpeed` (R88). -/
def execSetSpeed (id speed : Nat) (s : State) : Host.Outcome State Fault Refusal :=
  .next (s.perform (setSpeedOutcome s.params id speed))

/-- The meaning of `setPosition` (R89). -/
def execSetPosition (id position : Nat) (s : State) : Host.Outcome State Fault Refusal :=
  .next (s.perform (setPositionOutcome s.params id position))

/-- The meaning of `setPositionAbsolute` (R90). -/
def execSetPositionAbsolute (id position : Nat) (s : State) : Host.Outcome State Fault Refusal :=
  .next (s.perform (setPositionAbsoluteOutcome s.params id position))

/-- The meaning of `setNeutral` (R91). -/
def execSetNeutral (id position : Nat) (s : State) : Host.Outcome State Fault Refusal :=
  .next (s.perform (setNeutralOutcome s.params id position))

end Sys2Proof.Machine
end

