-- ==== Sys2Proof/Machine/Dispatch.lean ====
section
/-!
DEFINITION. The meaning of each instruction, by constructor (30_encoding.md R58).
-/
namespace Sys2Proof.Machine

def exec (i : Instr) (s : State) : Host.Outcome State Fault Refusal :=
  match i with
  | .configureServo id en fwd range => Sys2Proof.Machine.execConfigureServo id en fwd range s
  | .setSpeed id speed => Sys2Proof.Machine.execSetSpeed id speed s
  | .setPosition id position => Sys2Proof.Machine.execSetPosition id position s
  | .setPositionAbsolute id position => Sys2Proof.Machine.execSetPositionAbsolute id position s
  | .setNeutral id position => Sys2Proof.Machine.execSetNeutral id position s
  | .setServoNumberBaseNumber base => Sys2Proof.Machine.execSetServoNumberBaseNumber base s
  | .blinkServoNumberBaseNumber => Sys2Proof.Machine.execBlinkServoNumberBaseNumber s
  | .isValidServoId id => Sys2Proof.Machine.execIsValidServoId id s

end Sys2Proof.Machine
end

