-- ==== Sys2Proof/Machine/Outcome.lean ====
section
/-!
DEFINITION. The one total function `outcome : P → Word40 → Outcome` of 00_scope.md R11, from the outcomes of the commands and
the decoder.
-/
namespace Sys2Proof.Machine

/-- The outcome of a decoded command: a pure function of the parameters and the operands (R11, R27). -/
def instrOutcome (p : Params) : Instr → CmdOutcome
  | .configureServo id en fwd range => configureServoOutcome p id en fwd range
  | .setSpeed id speed => setSpeedOutcome p id speed
  | .setPosition id position => setPositionOutcome p id position
  | .setPositionAbsolute id position => setPositionAbsoluteOutcome p id position
  | .setNeutral id position => setNeutralOutcome p id position
  | .setServoNumberBaseNumber base => setServoNumberBaseNumberOutcome p base
  | .blinkServoNumberBaseNumber => blinkServoNumberBaseNumberOutcome p
  | .isValidServoId id => isValidServoIdOutcome id

/-- `outcome` (R11): decoding comes first, and its refusals before any validation (R61, R119). -/
def outcome (p : Params) (w : CmdWord) : CmdOutcome :=
  match decode w with
  | .ok i => instrOutcome p i
  | .error r => .refuse r

/-- The bytes an outcome hands to the sink: a frame's, and none of any other outcome (R46, R68). -/
def CmdOutcome.bytes : CmdOutcome → List Byte
  | .frame f _ => f
  | _ => []

/-- The response an outcome gets: exactly one, unless it is refused (R71, R116). -/
def CmdOutcome.response : CmdOutcome → Option Response
  | .reject c => some (.status c)
  | .refuse _ => none
  | .frame _ r => some r
  | .answer t => some (.bool t)

end Sys2Proof.Machine
end

