-- ==== Sys2Proof/Machine/Sequencer.lean ====
section
/-!
DEFINITION. What the next step is (10_state.md R26): a move of the environment, a transition of the framer, a hold, the
acceptance of a word, or a stop. `step` only carries it out.
-/
namespace Sys2Proof.Machine

/-- What the next step does. -/
inductive Plan where
  /-- No step is taken: a refusal of R118, by its reason. -/
  | stop (reason : RefuseReason)
  /-- The state this step leads to, where no instruction is run. -/
  | move (t : State)
  /-- Run instruction `i`, whose word has just been accepted, at `t`. -/
  | run (i : Instr) (t : State)
deriving DecidableEq, Repr

/-- The framer's step in `INIT`: it waits for the sink (R26, R123, R137). -/
def initMove (s : State) : State := if s.snkReady then s.acceptInit else s

/-- The framer's step in `BUSY` (R26): the next byte, once the sink accepts it; after the last byte, the response. Where
R26 gives no transition (the sink not ready, or an `IDX` beyond its range) the framer holds (R123). -/
def busyMove (s : State) : State :=
  match s.frame[s.idx]? with
  | some b => if s.snkReady then s.acceptByte b else s
  | none => if s.idx = s.frame.length then s.deliver else s

/-- The framer's step in `IDLE` (R26): with `INIT_DONE` = 1 it accepts the word the host offers; a word the decoder
refuses sets the mark (R59, R60), and any other is run. -/
def idlePlan (s : State) : Plan :=
  if s.initDone then
    match s.offers with
    | [] => .move s
    | w :: rest =>
      match decode w with
      | .ok i => .run i (s.takeWord w rest)
      | .error r => .move ((s.takeWord w rest).perform (.refuse r))
  else .move s

/-- The framer's step, by phase (R26). In `RESET` it has none (R135). -/
def framerPlan (s : State) : Plan :=
  match s.phase with
  | .reset => .move s
  | .init => .move (initMove s)
  | .idle => idlePlan s
  | .busy => .move (busyMove s)

/-- What the next step does: none with bad parameters (R118) or the refusal mark set (R7); else the next agent's move. -/
def plan (s : State) : Plan :=
  if s.params.valid then
    match s.refused with
    | some r => .stop r
    | none =>
      match s.nextMove with
      | .framer => framerPlan s.popMove
      | m => .move (s.popMove.envMove m)
  else .stop .badParameters

/-- Place a word so that the very next step accepts and runs it: an idle, initialised, unmarked block, the word at the head
of the host's offers, the framer to move (R26). -/
def placeWord (s : State) (w : CmdWord) : State :=
  { s with phase := .idle, initDone := true, refused := none, offers := w :: s.offers, script := .framer :: s.script }

end Sys2Proof.Machine
end

