-- ==== Sys2Proof/Machine/Step.lean ====
section
/-!
DEFINITION. One step of the machine: it carries out what Sys2Proof/Machine/Sequencer.lean plans.
-/
namespace Sys2Proof.Machine

/-- Carry out a plan: stop by name, go to the planned state, or run the accepted instruction. -/
def carryOut : Plan → Host.Outcome State Fault Refusal
  | .stop r => .refused (.refuse r)
  | .move t => .next t
  | .run i t => exec i t

/-- One step: a move of the next agent (R8, R26). -/
def step (s : State) : Host.Outcome State Fault Refusal := carryOut (plan s)

/-- The state with the word `w` (its low `nbits` bits; a command word is 40 bits, R56) where the next step takes its
command. The block takes its program from the command port (R21), so this stands for the host's next offer. -/
def State.withFetchWord (s : State) (nbits w : Nat) : State :=
  placeWord s (BitVec.ofNat 40 (w % 2 ^ nbits))

end Sys2Proof.Machine
end

