-- ==== Sys2Proof/Machine/Assembler.lean ====
section
/-!
DEFINITION. The assembly language of the block (30_encoding.md R73 to R76): a tool beside the machine, which turns a line of
text into a command word and a word back into its canonical line. It reads and writes no state.
-/
namespace Sys2Proof.Asm

/-- Why a line is refused (R74). -/
inductive AsmError where
  /-- The mnemonic is none of R73's eight. -/
  | unknownMnemonic
  /-- A wrong number of operands, after the defaults of R75. -/
  | wrongOperandCount
  /-- An integer operand that is no unsigned decimal or `0x` hexadecimal number below 65536 (a negative one among them). -/
  | badInteger
  /-- An `en` or `fwd` operand other than `true` and `false`. -/
  | badFlag
  /-- A `.word` directive whose operand is not `0x` and ten hexadecimal digits. -/
  | badWord
deriving DecidableEq, Repr

/-- The mnemonics of R73. -/
inductive Mnemonic where
  | configureServo
  | setSpeed
  | setPosition
  | setPositionAbsolute
  | setNeutral
  | setServoNumberBaseNumber
  | blinkServoNumberBaseNumber
  | isValidServoId
deriving DecidableEq, Repr

/-- A mnemonic's text: the source's operation name (R2, R73). -/
def Mnemonic.text : Mnemonic → String
  | .configureServo => "configureServo"
  | .setSpeed => "setSpeed"
  | .setPosition => "setPosition"
  | .setPositionAbsolute => "setPositionAbsolute"
  | .setNeutral => "setNeutral"
  | .setServoNumberBaseNumber => "setServoNumberBaseNumber"
  | .blinkServoNumberBaseNumber => "blinkServoNumberBaseNumber"
  | .isValidServoId => "isValidServoId"

/-- Every mnemonic, in the order of R73's table. -/
def mnemonics : List Mnemonic :=
  [.configureServo, .setSpeed, .setPosition, .setPositionAbsolute, .setNeutral, .setServoNumberBaseNumber,
   .blinkServoNumberBaseNumber, .isValidServoId]

/-- The mnemonic a text names, if any. -/
def mnemonicOf (text : List Char) : Option Mnemonic := mnemonics.find? (fun m => m.text.toList == text)

/-! ### Reading a line -/

/-- A blank: space or tab. -/
def isBlank (c : Char) : Bool := c == ' ' || c == '\t'

/-- A text without its leading and trailing blanks. -/
def trim (l : List Char) : List Char := ((l.dropWhile isBlank).reverse.dropWhile isBlank).reverse

/-- The parts of a text between its commas. -/
def splitCommas : List Char → List (List Char)
  | [] => [[]]
  | c :: cs =>
    match splitCommas cs with
    | [] => [[c]]
    | part :: parts => if c == ',' then [] :: part :: parts else (c :: part) :: parts

/-- The operands after a mnemonic: none in a blank text, else its comma-separated parts without their blanks (R73). -/
def operandsOf (rest : List Char) : List (List Char) :=
  if (trim rest).isEmpty then [] else (splitCommas rest).map trim

/-- A line's mnemonic text: up to the first blank. -/
def headText (line : List Char) : List Char := (trim line).takeWhile (fun c => !isBlank c)

/-- A line's text after its mnemonic. -/
def tailText (line : List Char) : List Char := (trim line).dropWhile (fun c => !isBlank c)

/-- The sixteen digits of R73's and R76's numbers, each at the place of its value. -/
def digits : List Char := "0123456789ABCDEF".toList

/-- The value of a digit of a base up to 16, either case: its place among the base's digits. -/
def digitValue (base : Nat) (c : Char) : Option Nat := (digits.take base).idxOf? c.toUpper

/-- The number a text of digits denotes, after the number `acc` denoted so far; none if a character is no digit. -/
def readDigits (base : Nat) : List Char → Nat → Option Nat
  | [], acc => some acc
  | c :: cs, acc =>
    match digitValue base c with
    | some d => readDigits base cs (acc * base + d)
    | none => none

/-- An unsigned integer, decimal or `0x` hexadecimal (R73). -/
def readInt (text : List Char) : Option Nat :=
  match text with
  | [] => none
  | ['0', 'x'] => none
  | '0' :: 'x' :: hex => readDigits 16 hex 0
  | decimal => readDigits 10 decimal 0

/-- An integer operand: below `2^W_ARG` (R73, R74). -/
def intOperand (text : List Char) : Except AsmError Nat :=
  match readInt text with
  | some n => if n < 2 ^ wArg then .ok n else .error .badInteger
  | none => .error .badInteger

/-- An `en` or `fwd` operand (R73, R74). -/
def flagOperand (text : List Char) : Except AsmError Bool :=
  if text = "true".toList then .ok true
  else if text = "false".toList then .ok false
  else .error .badFlag

/-! ### Assembling -/

/-- The source's default arguments as assembler defaults (R75): the operands of the full form. -/
def withDefaults : Mnemonic → List (List Char) → List (List Char)
  | .setSpeed, [id] => [id, "0".toList]
  | .setPosition, [id] => [id, "0".toList]
  | .setPositionAbsolute, [id] => [id, "500".toList]
  | .setNeutral, [id] => [id, "3000".toList]
  | .configureServo, [id] => [id, "true".toList, "true".toList, "15".toList]
  | .configureServo, [id, en] => [id, en, "true".toList, "15".toList]
  | .configureServo, [id, en, fwd] => [id, en, fwd, "15".toList]
  | .setServoNumberBaseNumber, [] => ["0".toList]
  | _, operands => operands

/-- An instruction of two integer operands. -/
def intInt (make : Nat → Nat → Instr) : List (List Char) → Except AsmError Instr
  | [a, b] => do return make (← intOperand a) (← intOperand b)
  | _ => .error .wrongOperandCount

/-- An instruction of one integer operand. -/
def oneInt (make : Nat → Instr) : List (List Char) → Except AsmError Instr
  | [a] => do return make (← intOperand a)
  | _ => .error .wrongOperandCount

/-- The full form of an instruction (R73). Operand ranges are not checked: "an out-of-range value is assembled". -/
def fullForm : Mnemonic → List (List Char) → Except AsmError Instr
  | .configureServo, [id, en, fwd, range] => do
    return .configureServo (← intOperand id) (← flagOperand en) (← flagOperand fwd) (← intOperand range)
  | .configureServo, _ => .error .wrongOperandCount
  | .setSpeed, operands => intInt .setSpeed operands
  | .setPosition, operands => intInt .setPosition operands
  | .setPositionAbsolute, operands => intInt .setPositionAbsolute operands
  | .setNeutral, operands => intInt .setNeutral operands
  | .setServoNumberBaseNumber, operands => oneInt .setServoNumberBaseNumber operands
  | .blinkServoNumberBaseNumber, [] => .ok .blinkServoNumberBaseNumber
  | .blinkServoNumberBaseNumber, _ => .error .wrongOperandCount
  | .isValidServoId, operands => oneInt .isValidServoId operands

/-- The instruction a line of text names (R73 to R75). -/
def parseInstr (line : List Char) : Except AsmError Instr :=
  match mnemonicOf (headText line) with
  | some m => fullForm m (withDefaults m (operandsOf (tailText line)))
  | none => .error .unknownMnemonic

/-- Assemble one line: one command (R73). -/
def assembleLine (line : List Char) : Except AsmError CmdWord := (parseInstr line).map encode

/-- The operand of a `.word` directive: `0x` and ten hexadecimal digits (R76). -/
def wordOperand (text : List Char) : Except AsmError CmdWord :=
  match text with
  | '0' :: 'x' :: hex =>
    if hex.length = 10 then
      match readDigits 16 hex 0 with
      | some n => .ok (BitVec.ofNat 40 n)
      | none => .error .badWord
    else .error .badWord
  | _ => .error .badWord

/-- Read one line of a listing: a command, or the `.word` directive R76 prints for a refused word (and program P4 of
95_test_vectors.md writes). The directive is no line of R73's language, which produces no refused word (R74). -/
def readLine (line : List Char) : Except AsmError CmdWord :=
  if headText line = ".word".toList then wordOperand (trim (tailText line)) else assembleLine line

/-- Read the lines of a listing, numbered from `n`; the first bad line is refused "by name and line" (R74). -/
def readLines (n : Nat) : List (List Char) → Except (Nat × AsmError) (List CmdWord)
  | [] => .ok []
  | line :: lines =>
    match readLine line with
    | .error e => .error (n, e)
    | .ok w =>
      match readLines (n + 1) lines with
      | .error e => .error e
      | .ok ws => .ok (w :: ws)

/-- Assemble a program: one command per line, lines numbered from 1 (R73, R74). -/
def assemble (lines : List (List Char)) : Except (Nat × AsmError) (List CmdWord) := readLines 1 lines

/-! ### Canonical printing -/

/-- The character of a digit. -/
def digitChar (d : Nat) : Char := digits.getD d '0'

/-- Exactly `count` digits of `n` in a base, most significant first. -/
def fixedDigits (base : Nat) : Nat → Nat → List Char
  | 0, _ => []
  | count + 1, n => fixedDigits base count (n / base) ++ [digitChar (n % base)]

/-- At most `fuel` decimal digits of `n`, with no leading zero. -/
def decDigits : Nat → Nat → List Char
  | 0, _ => []
  | fuel + 1, n => if n < 10 then [digitChar n] else decDigits fuel (n / 10) ++ [digitChar (n % 10)]

/-- An integer operand in decimal (R76); an operand is below 65536, so five digits hold it. -/
def printInt (n : Nat) : List Char := decDigits 5 n

/-- An `en` or `fwd` operand (R76). -/
def printFlag (b : Bool) : List Char := if b then "true".toList else "false".toList

/-- Operands separated by a comma and a space (R73). -/
def printOperands : List (List Char) → List Char
  | [] => []
  | [a] => a
  | a :: b :: rest => a ++ ", ".toList ++ printOperands (b :: rest)

/-- The mnemonic of an instruction. -/
def mnemonicOfInstr : Instr → Mnemonic
  | .configureServo .. => .configureServo
  | .setSpeed .. => .setSpeed
  | .setPosition .. => .setPosition
  | .setPositionAbsolute .. => .setPositionAbsolute
  | .setNeutral .. => .setNeutral
  | .setServoNumberBaseNumber .. => .setServoNumberBaseNumber
  | .blinkServoNumberBaseNumber => .blinkServoNumberBaseNumber
  | .isValidServoId .. => .isValidServoId

/-- Every operand of an instruction, in the full form's order (R73, R76). -/
def operandTexts : Instr → List (List Char)
  | .configureServo id en fwd range => [printInt id, printFlag en, printFlag fwd, printInt range]
  | .setSpeed id speed => [printInt id, printInt speed]
  | .setPosition id position => [printInt id, printInt position]
  | .setPositionAbsolute id position => [printInt id, printInt position]
  | .setNeutral id position => [printInt id, printInt position]
  | .setServoNumberBaseNumber base => [printInt base]
  | .blinkServoNumberBaseNumber => []
  | .isValidServoId id => [printInt id]

/-- The canonical line of an instruction: the full form (R76). -/
def printInstr (i : Instr) : List Char :=
  match operandTexts i with
  | [] => (mnemonicOfInstr i).text.toList
  | operands => (mnemonicOfInstr i).text.toList ++ ' ' :: printOperands operands

/-- Canonical printing of a word: its instruction's full form, or the `.word` directive for a refused word (R76). -/
def printWord (w : CmdWord) : List Char :=
  match decode w with
  | .ok i => printInstr i
  | .error _ => ".word 0x".toList ++ fixedDigits 16 10 w.toNat

end Sys2Proof.Asm
end

