-- ==== Sys2Proof/Safety.lean ====
section
/-!
DEFINITION. The terms of claims about runs: several steps, the invariant of the block's state, what the traces hold since a
reset, when a run hangs (00_scope.md R9, R10), and when it has come to its end (log row 18).
-/
namespace Sys2Proof.Machine

/-- `n` steps, stopping where a step has no next state. -/
def run : Nat → State → Host.Outcome State Fault Refusal
  | 0, s => .next s
  | n + 1, s =>
    match step s with
    | .next t => run n t
    | .fault f => .fault f
    | .refused r => .refused r

/-- The bytes a command word hands to the sink (R46, R68). -/
def wordBytes (p : Params) (w : CmdWord) : List Byte := (outcome p w).bytes

/-- The responses the words `ws` get, the first of them being the `n`-th word accepted: one each, none for a refused word
(R71, R115). -/
def answers (p : Params) (n : Nat) : List CmdWord → List Answered
  | [] => []
  | w :: ws => ((outcome p w).response.map (Answered.mk n)).toList ++ answers p (n + 1) ws

/-- The framer's steps for one command, the sink always ready: its acceptance, its frame's bytes and its response (R26). -/
def wordSteps (p : Params) (w : CmdWord) : Nat :=
  match outcome p w with
  | .frame f _ => 1 + f.length + 1
  | _ => 1

/-- A word the model gives a meaning (R118, R147). -/
def Accepted (p : Params) (w : CmdWord) : Prop := ∀ r, outcome p w ≠ .refuse r

/-- The block is ready and the host offers `w`: `IDLE`, initialised, unmarked, its parameters valid, a sink that accepts, and
no move of the environment to come (10_state.md R26; 95_test_vectors.md L3). -/
structure State.Ready (s : State) (w : CmdWord) (rest : List CmdWord) : Prop where
  valid : s.params.valid = true
  unmarked : s.refused = none
  quiet : s.script = []
  accepting : s.snkReady = true
  idle : s.phase = .idle
  initDone : s.initDone = true
  offered : s.offers = w :: rest

/-- After a word answered without a sink event: the word is taken, one response is delivered, nothing else changes (R110,
R116). -/
def State.afterAnswer (s : State) (w : CmdWord) (rest : List CmdWord) (r : Response) : State :=
  { s with
    offers := rest
    taken := s.taken ++ [w]
    rspTrace := s.rspTrace ++ [⟨s.taken.length + 1, r⟩] }

/-- After a refused word: the word is taken and the mark set; no sink event, no response, nothing else changes (R59, R60). -/
def State.afterMark (s : State) (w : CmdWord) (rest : List CmdWord) (x : RefuseReason) : State :=
  { s with
    offers := rest
    taken := s.taken ++ [w]
    refused := some x }

/-- After a whole frame: the word is taken, the frame's bytes are in the sink trace in order, the response is delivered, the
phase is `IDLE` again; `FRAME`, `IDX` and `PEND` are dead and may hold anything; nothing else changes (R27, R47, R50). -/
def State.AfterFrame (s : State) (w : CmdWord) (rest : List CmdWord) (f : List Byte) (r : Response) (t : State) : Prop :=
  ∃ fr ix pd n,
    t = { s with
      offers := rest
      taken := s.taken ++ [w]
      sinkTrace := s.sinkTrace ++ f.map SinkEvent.emit
      rspTrace := s.rspTrace ++ [⟨s.taken.length + 1, r⟩]
      frame := fr
      idx := ix
      pend := pd
      freeCount := n }

/-- A whole command that emits: after its acceptance, its bytes and its response (`len(f) + 2` steps, the sink always ready)
the frame has been handed over. -/
def State.Emits (s : State) (w : CmdWord) (rest : List CmdWord) (f : List Byte) (r : Response) : Prop :=
  ∃ t, run (f.length + 2) s = .next t ∧ s.AfterFrame w rest f r t

/-- The invariant of the state record (10_state.md): the parameters satisfy R3; `INIT_DONE` says the reset sequence is over
(R24); `FRAME` and `IDX` are in their ranges; in `BUSY` they are the last accepted word's frame and response, and the bytes
below `IDX` are the end of the sink trace (R26, R139); the responses carry the numbers of accepted commands, in order, at
most one each, and none for the command under way (R9, R50, R71). -/
structure State.Inv (s : State) : Prop where
  valid : s.params.valid = true
  initDone_iff : s.initDone = true ↔ s.phase = .idle ∨ s.phase = .busy
  frame_le : s.frame.length ≤ frameMax
  idx_le : s.idx ≤ s.frame.length
  busy_frame : s.phase = .busy → ∃ w, s.taken.getLast? = some w ∧ outcome s.params w = .frame s.frame s.pend
  busy_sent : s.phase = .busy → (s.frame.take s.idx).map SinkEvent.emit <:+ s.sinkTrace
  tags_rising : (s.rspTrace.map Answered.cmd).Pairwise (· < ·)
  tags_range : ∀ a ∈ s.rspTrace, 1 ≤ a.cmd ∧ a.cmd ≤ s.taken.length
  busy_open : s.phase = .busy → ∀ a ∈ s.rspTrace, a.cmd < s.taken.length

/-- What the traces hold since a reset: `events`, `words` and `responses` are the traces at that reset. Until the sink
accepts `SinkInit` nothing is added; then one `SinkInit(BAUD)`, the frames of the words accepted since, in order and whole,
the command under way up to `IDX`, and the responses of the commands done (R46, R47, R50, R52, R138). -/
def State.StreamSince (events : List SinkEvent) (words : List CmdWord) (responses : List Answered) (s : State) : Prop :=
  match s.phase with
  | .reset => s.sinkTrace = events ∧ s.taken = words ∧ s.rspTrace = responses
  | .init => s.sinkTrace = events ∧ s.taken = words ∧ s.rspTrace = responses
  | .idle =>
    ∃ ws, s.taken = words ++ ws ∧
      s.sinkTrace = events ++ .sinkInit s.baud :: (ws.flatMap (wordBytes s.params)).map SinkEvent.emit ∧
      s.rspTrace = responses ++ answers s.params (words.length + 1) ws
  | .busy =>
    ∃ ws w, s.taken = words ++ ws ++ [w] ∧ outcome s.params w = .frame s.frame s.pend ∧ s.idx ≤ s.frame.length ∧
      s.sinkTrace =
        events ++ .sinkInit s.baud :: (ws.flatMap (wordBytes s.params) ++ s.frame.take s.idx).map SinkEvent.emit ∧
      s.rspTrace = responses ++ answers s.params (words.length + 1) ws

/-- No reset is asserted in the moves to come. -/
def State.NoReset (s : State) : Prop := Move.assertReset ∉ s.script

/-- The framer is to move and the sink does not accept what it offers, with no move of the environment to come: a hang, not
an end of run (R10, R123). -/
def State.Hung (s : State) : Prop :=
  s.script = [] ∧ s.snkReady = false ∧ (s.snkInitValid = true ∨ s.snkByteValid = true)

/-- The run has come to its end: unmarked, `IDLE`, initialised, nothing offered and no move to come. DESIGN CHOICE (log row
18): R10 says only that a run that stops in `BUSY` or `INIT` is no end of run, and no rule says which states are one. -/
def State.Ended (s : State) : Prop :=
  s.refused = none ∧ s.script = [] ∧ s.phase = .idle ∧ s.initDone = true ∧ s.offers = []

/-- A run is safe while no word of it was refused: "every claim takes `REFUSED = 0` as a premise" (10_state.md). -/
def State.Unrefused (s : State) : Prop := s.refused = none

/-- How many `SinkInit` events a trace holds (R138). -/
def countInits (tr : List SinkEvent) : Nat :=
  (tr.filter fun e => match e with | .sinkInit _ => true | .emit _ => false).length

/-- The bytes of a sink trace, in order (R9, R48). -/
def emitted (tr : List SinkEvent) : List Byte :=
  tr.filterMap fun e => match e with | .emit b => some b | .sinkInit _ => none

end Sys2Proof.Machine
end

