-- ==== Sys2Proof/Certificates/Slice0/Obligations.lean ====
section
/-!
DEFINITION. The statements for the provers, in the order of the spec's files. `OBLIGATIONS.json` lists them.
-/
open Sys2Proof Sys2Proof.Machine

/-! ### Decoding (30_encoding.md R56 to R61) -/

/-- Decoding the word of any well-formed instruction gives that instruction, whatever its operands (R56 to R58). -/
def Obligations.DecodeEncodeAgree : Prop :=
  ∀ i : Instr, i.wf = true → decode (encode i) = .ok i

/-- Each word has one meaning: a word the decoder reads is the word of the well-formed instruction read (R56 to R58). -/
def Obligations.EncodeDecodeAgree : Prop :=
  ∀ (w : CmdWord) (i : Instr), decode w = .ok i → i.wf = true ∧ encode i = w

/-- Decoding is total and unambiguous (R61): a word matches exactly one row of R58, and is read as that row's instruction; or
its `OP` is reserved; or an unused field is nonzero. A refused word is refused whatever the validation of its operands
would say, under every parameter record. -/
def Obligations.DecodingIsTotal : Prop :=
  ∀ w : CmdWord,
    (∃ i, decode w = .ok i ∧ opOf w ∉ reservedOps ∧ ∀ r ∈ commandMap, r.selects w = true ↔ r = rowOf i) ∨
    (decode w = .error .reservedOp ∧ opOf w ∈ reservedOps ∧ (∀ r ∈ commandMap, r.selects w = false) ∧
      ∀ p, outcome p w = .refuse .reservedOp) ∨
    (decode w = .error .nonzeroUnusedField ∧ opOf w ∉ reservedOps ∧ (∀ r ∈ commandMap, r.selects w = false) ∧
      ∀ p, outcome p w = .refuse .nonzeroUnusedField)

/-- A word with a reserved `OP`, offered to a ready block (R59): no sink event, no response, the refusal mark set, and no
further step. -/
def Obligations.ReservedOpSetsMark : Prop :=
  ∀ (s : State) (w : CmdWord) (rest : List CmdWord), s.Ready w rest →
    opOf w ∈ [0x2, 0x6, 0x7, 0xB, 0xC, 0xD, 0xE, 0xF] →
    step s = .next (s.afterMark w rest .reservedOp) ∧
      step (s.afterMark w rest .reservedOp) = .refused (.refuse .reservedOp)

/-- A word with a valid `OP` and a nonzero value in a field R57 marks 0, or a nonzero `RSV` (R60): it matches no row
of R58, and it is refused as a reserved word is, under its own reason. -/
def Obligations.NonzeroUnusedFieldSetsMark : Prop :=
  ∀ (s : State) (w : CmdWord) (rest : List CmdWord), s.Ready w rest →
    (opOf w = 0x0 ∧ rsvOf w ≠ 0 ∨
      opOf w ∈ [0x1, 0x3, 0x4, 0x5] ∧ (enOf w = true ∨ fwdOf w = true ∨ rsvOf w ≠ 0) ∨
      opOf w ∈ [0x8, 0xA] ∧ (enOf w = true ∨ fwdOf w = true ∨ rsvOf w ≠ 0 ∨ argV w ≠ 0) ∨
      opOf w = 0x9 ∧ (enOf w = true ∨ fwdOf w = true ∨ rsvOf w ≠ 0 ∨ argA w ≠ 0 ∨ argV w ≠ 0)) →
    (∀ r ∈ commandMap, r.selects w = false) ∧ step s = .next (s.afterMark w rest .nonzeroUnusedField) ∧
      step (s.afterMark w rest .nonzeroUnusedField) = .refused (.refuse .nonzeroUnusedField)

/-- Words written out from R56 and R58 (the examples of R88 to R92 and R108 to R110) decode to the instructions they stand
for. -/
def Obligations.WrittenWordsDecode : Prop :=
  decode 0x0C000A000F#40 = .ok (.configureServo 10 true true 15) ∧
  decode 0x08000A0028#40 = .ok (.configureServo 10 true false 40) ∧
  decode 0x1000050000#40 = .ok (.setSpeed 5 0) ∧
  decode 0x30000300C8#40 = .ok (.setPosition 3 200) ∧
  decode 0x40000005DC#40 = .ok (.setPositionAbsolute 0 1500) ∧
  decode 0x5000070BB8#40 = .ok (.setNeutral 7 3000) ∧
  decode 0x8000030000#40 = .ok (.setServoNumberBaseNumber 3) ∧
  decode 0x9000000000#40 = .ok .blinkServoNumberBaseNumber ∧
  decode 0xA0007F0000#40 = .ok (.isValidServoId 127)

/-! ### A step runs the decoded instruction (10_state.md R26) -/

/-- When the framer is to move, the command port is ready and the host's next word decodes to `i`, the step is `exec i` at
the state in which the word has been taken from the port and the framer's move from the script. -/
def Obligations.StepRunsDecodedInstr : Prop :=
  ∀ (s : State) (w : CmdWord) (rest : List CmdWord) (i : Instr),
    s.params.valid = true → s.refused = none → s.nextMove = .framer → s.cmdReady = true → s.offers = w :: rest →
    decode w = .ok i →
    step s = exec i { s with script := s.script.tail, offers := rest, taken := s.taken ++ [w] }

/-- Once the refusal mark is set no step is taken, whoever would move, a reset included; each is refused under the mark's
reason. R7 says that the block takes no further step; that a reset is refused as well, where R26 also has a transition from
any phase to `RESET`, is the model's reading (log row 3). -/
def Obligations.MarkStopsTheBlock : Prop :=
  ∀ (s : State) (r : RefuseReason), s.params.valid = true → s.refused = some r → step s = .refused (.refuse r)

/-! ### The command rules: each word, from its offer to its response (R88 to R92, R108 to R110) -/

/-- `configureServo` (R92), from the word to the response. -/
def Obligations.ConfigureServoCommand : Prop :=
  ∀ (s : State) (w : CmdWord) (rest : List CmdWord), s.Ready w rest → w &&& 0xF300000000#40 = 0x0000000000#40 →
    if 128 ≤ bitsOf w.toNat 31 16 then step s = .next (s.afterAnswer w rest (.status (-2)))
    else if 31 < bitsOf w.toNat 15 0 then step s = .next (s.afterAnswer w rest (.status (-3)))
    else
      s.Emits w rest
        [s.params.syncByte, s.params.devServo, s.params.cmdSetParameters, BitVec.ofNat 8 (bitsOf w.toNat 31 16),
          cfgByte s.params (w.getLsbD 35) (w.getLsbD 34) (bitsOf w.toNat 15 0)]
        (.status 0)

/-- `setSpeed` (R88), from the word to the response. -/
def Obligations.SetSpeedCommand : Prop :=
  ∀ (s : State) (w : CmdWord) (rest : List CmdWord), s.Ready w rest → w &&& 0xFF00000000#40 = 0x1000000000#40 →
    if 128 ≤ bitsOf w.toNat 31 16 then step s = .next (s.afterAnswer w rest (.status (-2)))
    else if 127 < bitsOf w.toNat 15 0 then step s = .next (s.afterMark w rest .operandOutOfContract)
    else
      s.Emits w rest
        [s.params.syncByte, s.params.devServo, s.params.cmdSetSpeed, BitVec.ofNat 8 (bitsOf w.toNat 31 16),
          BitVec.ofNat 8 (bitsOf w.toNat 15 0)]
        (.status 0)

/-- `setPosition` (R89), from the word to the response. -/
def Obligations.SetPositionCommand : Prop :=
  ∀ (s : State) (w : CmdWord) (rest : List CmdWord), s.Ready w rest → w &&& 0xFF00000000#40 = 0x3000000000#40 →
    if 128 ≤ bitsOf w.toNat 31 16 then step s = .next (s.afterAnswer w rest (.status (-2)))
    else if 255 < bitsOf w.toNat 15 0 then step s = .next (s.afterMark w rest .operandOutOfContract)
    else
      s.Emits w rest
        ([s.params.syncByte, s.params.devServo, s.params.cmdSetPosition8Bit, BitVec.ofNat 8 (bitsOf w.toNat 31 16)] ++
          if s.params.splitOrder = .highFirst then [BitVec.ofNat 8 (bitsOf w.toNat 7 7), BitVec.ofNat 8 (bitsOf w.toNat 6 0)]
          else [BitVec.ofNat 8 (bitsOf w.toNat 6 0), BitVec.ofNat 8 (bitsOf w.toNat 7 7)])
        (.status 0)

/-- `setPositionAbsolute` (R90), from the word to the response. -/
def Obligations.SetPositionAbsoluteCommand : Prop :=
  ∀ (s : State) (w : CmdWord) (rest : List CmdWord), s.Ready w rest → w &&& 0xFF00000000#40 = 0x4000000000#40 →
    if 128 ≤ bitsOf w.toNat 31 16 then step s = .next (s.afterAnswer w rest (.status (-2)))
    else if bitsOf w.toNat 15 0 < 500 ∨ 5500 < bitsOf w.toNat 15 0 then
      step s = .next (s.afterAnswer w rest (.status (-3)))
    else
      s.Emits w rest
        ([s.params.syncByte, s.params.devServo, s.params.cmdSetPositionAbs, BitVec.ofNat 8 (bitsOf w.toNat 31 16)] ++
          if s.params.splitOrder = .highFirst then [BitVec.ofNat 8 (bitsOf w.toNat 13 7), BitVec.ofNat 8 (bitsOf w.toNat 6 0)]
          else [BitVec.ofNat 8 (bitsOf w.toNat 6 0), BitVec.ofNat 8 (bitsOf w.toNat 13 7)])
        (.status 0)

/-- `setNeutral` (R91), from the word to the response. -/
def Obligations.SetNeutralCommand : Prop :=
  ∀ (s : State) (w : CmdWord) (rest : List CmdWord), s.Ready w rest → w &&& 0xFF00000000#40 = 0x5000000000#40 →
    if 128 ≤ bitsOf w.toNat 31 16 then step s = .next (s.afterAnswer w rest (.status (-2)))
    else if bitsOf w.toNat 15 0 < 500 ∨ 5500 < bitsOf w.toNat 15 0 then
      step s = .next (s.afterAnswer w rest (.status (-3)))
    else
      s.Emits w rest
        ([s.params.syncByte, s.params.devServo, s.params.cmdSetNeutral, BitVec.ofNat 8 (bitsOf w.toNat 31 16)] ++
          if s.params.splitOrder = .highFirst then [BitVec.ofNat 8 (bitsOf w.toNat 13 7), BitVec.ofNat 8 (bitsOf w.toNat 6 0)]
          else [BitVec.ofNat 8 (bitsOf w.toNat 6 0), BitVec.ofNat 8 (bitsOf w.toNat 13 7)])
        (.status 0)

/-- `setServoNumberBaseNumber` (R108), from the word to the response, for either `BASE_MAX` and either `ERR_BASE_NUMBER`. -/
def Obligations.SetServoNumberBaseNumberCommand : Prop :=
  ∀ (s : State) (w : CmdWord) (rest : List CmdWord), s.Ready w rest → w &&& 0xFF0000FFFF#40 = 0x8000000000#40 →
    if s.params.baseMax.toNat < bitsOf w.toNat 31 16 then
      step s = .next (s.afterAnswer w rest (.status s.params.errBaseNumber.toInt))
    else
      s.Emits w rest [s.params.syncByte, s.params.devBase, BitVec.ofNat 8 (bitsOf w.toNat 31 16)] (.status 0)

/-- `blinkServoNumberBaseNumber` (R109), from the word to the response: the same frame in every state. -/
def Obligations.BlinkServoNumberBaseNumberCommand : Prop :=
  ∀ (s : State) (rest : List CmdWord), s.Ready 0x9000000000#40 rest →
    s.Emits 0x9000000000#40 rest [s.params.syncByte, s.params.devBase, s.params.blinkCode] .done

/-- `isValidServoId` (R110), from the word to the response: one answer and no sink event. -/
def Obligations.IsValidServoIdCommand : Prop :=
  ∀ (s : State) (w : CmdWord) (rest : List CmdWord), s.Ready w rest → w &&& 0xFF0000FFFF#40 = 0xA000000000#40 →
    step s = .next (s.afterAnswer w rest (.bool (decide (bitsOf w.toNat 31 16 < 128))))

/-! ### The meanings: what exec answers (R85 to R92, R105 to R110) -/

/-- `configureServo` completes: with a valid id and range it enters `BUSY` with its five-byte frame and status 0 (R92). -/
def Obligations.ConfigureServoCompletes : Prop :=
  ∀ (s : State) (id : Nat) (en fwd : Bool) (range : Nat), id ≤ 127 → range ≤ 31 →
    exec (.configureServo id en fwd range) s = .next { s with
      phase := .busy
      frame := [s.params.syncByte, s.params.devServo, s.params.cmdSetParameters, BitVec.ofNat 8 id,
        cfgByte s.params en fwd range]
      idx := 0
      pend := .status 0 }

/-- `setSpeed` completes: with a valid id and a speed in its contract it enters `BUSY` with its five-byte frame (R88). -/
def Obligations.SetSpeedCompletes : Prop :=
  ∀ (s : State) (id speed : Nat), id ≤ 127 → speed ≤ 127 →
    exec (.setSpeed id speed) s = .next { s with
      phase := .busy
      frame := [s.params.syncByte, s.params.devServo, s.params.cmdSetSpeed, BitVec.ofNat 8 id, BitVec.ofNat 8 speed]
      idx := 0
      pend := .status 0 }

/-- `setPosition` completes: with a valid id and a position in its contract it enters `BUSY` with its six-byte frame, the
position's bit 7 and its bits 6:0 in the order `SPLIT_ORDER` (R89). -/
def Obligations.SetPositionCompletes : Prop :=
  ∀ (s : State) (id position : Nat), id ≤ 127 → position ≤ 255 →
    exec (.setPosition id position) s = .next { s with
      phase := .busy
      frame := [s.params.syncByte, s.params.devServo, s.params.cmdSetPosition8Bit, BitVec.ofNat 8 id] ++
        (if s.params.splitOrder = .highFirst then [BitVec.ofNat 8 (position / 128), BitVec.ofNat 8 (position % 128)]
          else [BitVec.ofNat 8 (position % 128), BitVec.ofNat 8 (position / 128)])
      idx := 0
      pend := .status 0 }

/-- `setPositionAbsolute` and `setNeutral` complete: with a valid id and a position in 500 to 5500 they enter `BUSY` with
their six-byte frames, which differ in the command byte alone (R90, R91). -/
def Obligations.AbsoluteAndNeutralComplete : Prop :=
  ∀ (s : State) (id position : Nat), id ≤ 127 → 500 ≤ position → position ≤ 5500 →
    ∀ data : List Byte,
      data = (if s.params.splitOrder = .highFirst then [BitVec.ofNat 8 (position / 128), BitVec.ofNat 8 (position % 128)]
          else [BitVec.ofNat 8 (position % 128), BitVec.ofNat 8 (position / 128)]) →
      exec (.setPositionAbsolute id position) s = .next { s with
        phase := .busy
        frame := [s.params.syncByte, s.params.devServo, s.params.cmdSetPositionAbs, BitVec.ofNat 8 id] ++ data
        idx := 0
        pend := .status 0 } ∧
      exec (.setNeutral id position) s = .next { s with
        phase := .busy
        frame := [s.params.syncByte, s.params.devServo, s.params.cmdSetNeutral, BitVec.ofNat 8 id] ++ data
        idx := 0
        pend := .status 0 }

/-- `setServoNumberBaseNumber` completes on every base number up to `BASE_MAX`: 0 to 16, or 0 to 15 (R106, R108). -/
def Obligations.SetServoNumberBaseNumberCompletes : Prop :=
  ∀ (s : State) (base : Nat), base ≤ (match s.params.baseMax with | .sixteen => 16 | .fifteen => 15) →
    exec (.setServoNumberBaseNumber base) s = .next { s with
      phase := .busy
      frame := [s.params.syncByte, s.params.devBase, BitVec.ofNat 8 base]
      idx := 0
      pend := .status 0 }

/-- `blinkServoNumberBaseNumber` completes in every state, with the same frame, and `isValidServoId` on every id (R109,
R110). -/
def Obligations.BlinkAndQueryComplete : Prop :=
  ∀ s : State,
    exec .blinkServoNumberBaseNumber s = .next { s with
      phase := .busy
      frame := [s.params.syncByte, s.params.devBase, s.params.blinkCode]
      idx := 0
      pend := .done } ∧
    ∀ id : Nat,
      exec (.isValidServoId id) s = .next { s with
        rspTrace := s.rspTrace ++ [⟨s.taken.length, .bool (decide (id < 128))⟩] }

/-- The servo-id check comes first in each of the five servo-targeted commands (R85): with an id of 128 or more the answer
is `InvalidServoId`, whatever the other operands hold, and nothing else happens. -/
def Obligations.InvalidServoIdFirst : Prop :=
  ∀ (s : State) (id : Nat), 128 ≤ id →
    ∀ t : State, t = { s with rspTrace := s.rspTrace ++ [⟨s.taken.length, .status (-2)⟩] } →
      (∀ en fwd range, exec (.configureServo id en fwd range) s = .next t) ∧
      (∀ speed, exec (.setSpeed id speed) s = .next t) ∧
      (∀ position, exec (.setPosition id position) s = .next t) ∧
      (∀ position, exec (.setPositionAbsolute id position) s = .next t) ∧
      (∀ position, exec (.setNeutral id position) s = .next t)

/-- Once the id is valid, a position outside 500 to 5500, a range above 31 and a base number above `BASE_MAX` are rejected
with their codes and nothing else happens (R117). -/
def Obligations.ValueErrorsRejected : Prop :=
  ∀ (s : State) (id v : Nat) (en fwd : Bool), id ≤ 127 →
    (v < 500 ∨ 5500 < v →
      exec (.setPositionAbsolute id v) s = .next (s.respond (.status (-3))) ∧
      exec (.setNeutral id v) s = .next (s.respond (.status (-3)))) ∧
    (31 < v → exec (.configureServo id en fwd v) s = .next (s.respond (.status (-3)))) ∧
    ((match s.params.baseMax with | .sixteen => 16 | .fifteen => 15) < v →
      exec (.setServoNumberBaseNumber v) s =
        .next (s.respond (.status (match s.params.errBaseNumber with | .minusTwo => -2 | .minusThree => -3))))

/-- With a valid id, a speed above 127 or a `setPosition` position above 255 is out of contract (R88, R89): the mark is set,
and nothing else happens. -/
def Obligations.OutOfContractSetsMark : Prop :=
  ∀ (s : State) (id v : Nat), id ≤ 127 →
    (127 < v → exec (.setSpeed id v) s = .next { s with refused := some .operandOutOfContract }) ∧
    (255 < v → exec (.setPosition id v) s = .next { s with refused := some .operandOutOfContract })

/-- The frame of every meaning (R22, R27, R116, R130): no instruction touches the parameters, `BAUD`, `INIT_DONE`, the input
ports, the words taken, the sink trace or the model's own fields; one that starts a frame sets `PHASE`, `FRAME`, `IDX` and
`PEND` and delivers nothing; any other leaves those four alone and either delivers one response or sets the mark. -/
def Obligations.InstructionFrame : Prop :=
  ∀ (i : Instr) (s t : State), exec i s = .next t →
    (t.params = s.params ∧ t.baud = s.baud ∧ t.initDone = s.initDone ∧ t.cfgBaud = s.cfgBaud ∧
      t.cfgBaudGiven = s.cfgBaudGiven ∧ t.offers = s.offers ∧ t.snkReady = s.snkReady ∧ t.script = s.script ∧
      t.taken = s.taken ∧ t.sinkTrace = s.sinkTrace ∧ t.freeCount = s.freeCount) ∧
    (t.phase = .busy ∧ t.idx = 0 ∧ t.rspTrace = s.rspTrace ∧ t.refused = s.refused ∨
      t.phase = s.phase ∧ t.frame = s.frame ∧ t.idx = s.idx ∧ t.pend = s.pend ∧
        (t.refused = s.refused ∧ (∃ r, t.rspTrace = s.rspTrace ++ [⟨s.taken.length, r⟩]) ∨
          t.rspTrace = s.rspTrace ∧ t.refused = some .operandOutOfContract))

/-! ### Outcomes (00_scope.md R11; 60_exceptions.md R115 to R119) -/

/-- A rejection delivers its status, which is -2 or -3, and nothing else: no sink event, no change of `BAUD`, `INIT_DONE` or
the phase, no faulting value recorded (R116). -/
def Obligations.RejectionOnlyResponds : Prop :=
  ∀ (s : State) (w : CmdWord) (rest : List CmdWord) (c : Int), s.Ready w rest → outcome s.params w = .reject c →
    (c = -2 ∨ c = -3) ∧ step s = .next (s.afterAnswer w rest (.status c))

/-- The causes of the validation errors (R117): a word is rejected with a code exactly where one of the four errors' causes
holds, in the precedence of R119. -/
def Obligations.RejectionCauses : Prop :=
  ∀ (p : Params) (w : CmdWord) (c : Int), outcome p w = .reject c ↔
    ∃ i, decode w = .ok i ∧
      match i with
      | .configureServo id _ _ range => 128 ≤ id ∧ c = -2 ∨ id < 128 ∧ 31 < range ∧ c = -3
      | .setSpeed id _ => 128 ≤ id ∧ c = -2
      | .setPosition id _ => 128 ≤ id ∧ c = -2
      | .setPositionAbsolute id position =>
        128 ≤ id ∧ c = -2 ∨ id < 128 ∧ (position < 500 ∨ 5500 < position) ∧ c = -3
      | .setNeutral id position => 128 ≤ id ∧ c = -2 ∨ id < 128 ∧ (position < 500 ∨ 5500 < position) ∧ c = -3
      | .setServoNumberBaseNumber base => p.baseMax.toNat < base ∧ c = p.errBaseNumber.toInt
      | .blinkServoNumberBaseNumber => False
      | .isValidServoId _ => False

/-- The causes of the refusals (R118): a word is refused exactly for a reserved `OP`, a nonzero unused field, or an operand
out of contract with a valid id, each under its reason; and with parameters that break R3 there is no step. -/
def Obligations.RefusalCauses : Prop :=
  (∀ (p : Params) (w : CmdWord) (r : RefuseReason), outcome p w = .refuse r ↔
    opOf w ∈ reservedOps ∧ r = .reservedOp ∨
    opOf w ∉ reservedOps ∧ (∀ row ∈ commandMap, row.selects w = false) ∧ r = .nonzeroUnusedField ∨
    (∃ id speed, decode w = .ok (.setSpeed id speed) ∧ id < 128 ∧ 127 < speed ∧ r = .operandOutOfContract) ∨
    (∃ id position, decode w = .ok (.setPosition id position) ∧ id < 128 ∧ 255 < position ∧
      r = .operandOutOfContract)) ∧
  ∀ s : State, s.params.valid = false → step s = .refused (.refuse .badParameters)

/-- The outcome and the frame of a command depend only on its word and on `P`, never on earlier commands or the rest of the
state (R27): two ready blocks with the same parameters hand over the same bytes and deliver the same response. -/
def Obligations.NoStateSurvivesACommand : Prop :=
  ∀ (s t : State) (w : CmdWord) (rest rest' : List CmdWord),
    s.Ready w rest → t.Ready w rest' → s.params = t.params → Accepted s.params w →
    ∃ (n : Nat) (f : List Byte) (r : Response) (s' t' : State),
      run n s = .next s' ∧ run n t = .next t' ∧ s'.phase = .idle ∧ t'.phase = .idle ∧
      s'.sinkTrace = s.sinkTrace ++ f.map SinkEvent.emit ∧ t'.sinkTrace = t.sinkTrace ++ f.map SinkEvent.emit ∧
      s'.rspTrace = s.rspTrace ++ [⟨s.taken.length + 1, r⟩] ∧ t'.rspTrace = t.rspTrace ++ [⟨t.taken.length + 1, r⟩]

/-! ### Frames (30_encoding.md R62 to R70; 20_memory.md R43, R44) -/

/-- Every frame has length 3, 5 or 6, begins with `SYNC_BYTE`, and has bit 7 set in its first byte alone (R44, R68). -/
def Obligations.FrameShape : Prop :=
  ∀ (p : Params) (w : CmdWord) (f : List Byte) (r : Response), p.valid = true → outcome p w = .frame f r →
    (f.length = 3 ∨ f.length = 5 ∨ f.length = 6) ∧ f.head? = some p.syncByte ∧
      ∀ (k : Nat) (b : Byte), f[k]? = some b → (b.msb = true ↔ k = 0)

/-- The frame length of each operation, 3, 5 or 6; `isValidServoId` has no frame (R68). -/
def Obligations.FrameLengths : Prop :=
  ∀ (p : Params) (i : Instr) (f : List Byte) (r : Response), instrOutcome p i = .frame f r →
    match i with
    | .configureServo .. => f.length = 5
    | .setSpeed .. => f.length = 5
    | .setPosition .. => f.length = 6
    | .setPositionAbsolute .. => f.length = 6
    | .setNeutral .. => f.length = 6
    | .setServoNumberBaseNumber _ => f.length = 3
    | .blinkServoNumberBaseNumber => f.length = 3
    | .isValidServoId _ => False

/-- A receiver can find the length of a frame from its first three bytes (R69). -/
def Obligations.ReceiverFindsLength : Prop :=
  ∀ (p : Params) (w : CmdWord) (f : List Byte) (r : Response), p.valid = true → outcome p w = .frame f r →
    headerLength p f = some f.length

/-- The block never emits, in byte 2 of a format S frame, a value other than the five `CMD_*` parameters, and never a format
S frame with a servo id of 128 or more; every frame is of format S or B; under RB0 byte 2 of a format S frame is neither 0x02
nor 0x06 or more (R70, R62). -/
def Obligations.OnlyKnownCommandBytes : Prop :=
  ∀ (p : Params) (w : CmdWord) (f : List Byte) (r : Response), p.valid = true → outcome p w = .frame f r →
    (∃ (cmd idByte : Byte) (data : List Byte), f = [p.syncByte, p.devServo, cmd, idByte] ++ data ∧ cmd ∈ p.cmdBytes ∧
      idByte.toNat < 128 ∧ (data.length = 1 ∨ data.length = 2) ∧
      (p = Params.rb0 → cmd ≠ 0x02#8 ∧ cmd.toNat < 0x06)) ∨
    ∃ x : Byte, f = [p.syncByte, p.devBase, x]

/-- No bit of a split position is lost (R93): the two data bytes of an accepted position are below 128 and give the position
back, high part times 128 plus low part, in the order `SPLIT_ORDER` says. -/
def Obligations.SplitLosesNoBit : Prop :=
  ∀ (p : Params) (position : Nat), position ≤ 5500 →
    ∃ hi lo : Byte, hi.toNat < 128 ∧ lo.toNat < 128 ∧ hi.toNat * 128 + lo.toNat = position ∧
      splitPositionAbs p position = (if p.splitOrder = .highFirst then [hi, lo] else [lo, hi]) ∧
      (position ≤ 255 → splitPosition8 p position = splitPositionAbs p position ∧ hi.toNat ≤ 1)

/-- The configure data byte, bit by bit, under every valid parameter record, and its formula under RB0 (R67). -/
def Obligations.ConfigureByteBits : Prop :=
  ∀ (p : Params) (en fwd : Bool) (range : Nat), p.valid = true →
    ∀ b : Byte, b = cfgByte p en fwd range →
      b.getLsbD 7 = false ∧
      b.getLsbD p.cfgEnPos = (if en then p.enOnBit else !p.enOnBit) ∧
      b.getLsbD p.cfgDirPos = (if fwd then p.fwdDirBit else !p.fwdDirBit) ∧
      (∀ k < 5, b.getLsbD (p.cfgRangeLsb + k) = range.testBit k) ∧
      (∀ k, k ∉ p.cfgPositions → b.getLsbD k = false) ∧
      (p = Params.rb0 →
        b = (if en then 0x40#8 else 0x00#8) ||| (if fwd then 0x00#8 else 0x20#8) ||| BitVec.ofNat 8 (bitsOf range 4 0))

/-- Under RB0 the frame of base number 16 is the frame of the blink command (R150). RB0 is the spec's general knowledge, and
this claim names it. -/
def Obligations.BaseSixteenEqualsBlink : Prop :=
  wordBytes Params.rb0 0x8000100000#40 = wordBytes Params.rb0 0x9000000000#40 ∧
    wordBytes Params.rb0 0x9000000000#40 = [0x80#8, 0x02#8, 0x10#8]

/-! ### Responses (30_encoding.md R71, R72) -/

/-- The response word: kinds, status codes in 8-bit two's complement, Booleans; `0b11` is never driven (R71, R72). -/
def Obligations.ResponseEncoding : Prop :=
  (∀ r : Response, r.kind ≠ 0b11#2) ∧
  (∀ c, (Response.status c).kind = 0b00#2) ∧ (∀ t, (Response.bool t).kind = 0b01#2) ∧ Response.done.kind = 0b10#2 ∧
  (Response.status 0).data = 0x00#8 ∧ (Response.status (-2)).data = 0xFE#8 ∧ (Response.status (-3)).data = 0xFD#8 ∧
  (Response.bool true).data = 0x01#8 ∧ (Response.bool false).data = 0x00#8 ∧ Response.done.data = 0x00#8

/-! ### Reset and start-up (70_reset_and_hazards.md R135 to R140) -/

/-- Reset asserted, in any phase (R135, R139): `RESET` at once, `INIT_DONE` cleared, every output quiet, no response for the
command under way; what the sink accepted and the host received stays, and so do `BAUD`, `P`, the input ports and the words
offered. -/
def Obligations.ResetEndsEverything : Prop :=
  ∀ s : State, s.params.valid = true → s.refused = none → s.nextMove = .assertReset →
    ∃ t, step s = .next t ∧
      t.phase = .reset ∧ t.initDone = false ∧ t.cmdReady = false ∧ t.snkInitValid = false ∧ t.snkByteValid = false ∧
      t.sinkTrace = s.sinkTrace ∧ t.rspTrace = s.rspTrace ∧ t.taken = s.taken ∧ t.refused = s.refused ∧ t.baud = s.baud ∧
      t.params = s.params ∧ t.cfgBaud = s.cfgBaud ∧ t.cfgBaudGiven = s.cfgBaudGiven ∧ t.offers = s.offers ∧
      t.snkReady = s.snkReady ∧ t.script = s.script.tail

/-- The release of reset (R136), in one step: `BAUD` from `cfg_baud`, whatever its value, or 40000 where none is given;
`INIT_DONE` 0; `INIT`, where `SinkInit(BAUD)` is offered; nothing else changes. -/
def Obligations.ReleaseLoadsBaud : Prop :=
  ∀ s : State, s.params.valid = true → s.refused = none → s.phase = .reset → s.nextMove = .releaseReset →
    ∃ t, step s = .next t ∧
      t = { s with
        baud := if s.cfgBaudGiven then s.cfgBaud else 40000#32
        initDone := false
        phase := .init
        script := s.script.tail } ∧
      t.snkInitValid = true ∧ t.snkRate = t.baud ∧ t.cmdReady = false

/-- The sink accepts `SinkInit(BAUD)` (R137): `INIT_DONE` 1, `IDLE`, `cmd_ready` 1, and the event in the sink trace; while it
does not accept, the block waits in `INIT`. That the wait is a step which answers the same state, where R123 gives the framer
no step, is the model's choice (log row 13). -/
def Obligations.SinkInitOpensThePort : Prop :=
  ∀ s : State, s.params.valid = true → s.refused = none → s.phase = .init → s.nextMove = .framer →
    (s.snkReady = true →
      ∃ t, step s = .next t ∧ t.cmdReady = true ∧
        t = { s with
          sinkTrace := s.sinkTrace ++ [.sinkInit s.baud]
          initDone := true
          phase := .idle
          script := s.script.tail }) ∧
    (s.snkReady = false → s.cmdReady = false ∧ step s = .next { s with script := s.script.tail })

/-- The reset state in full (R140), under every schedule. `u` is the state at a release of `rst` from `s`, `t` the first state
of the run from there in which `INIT_DONE` is 1, and no other reset is asserted: whatever the host offers, whatever the
platform presents after the release and however long the sink delays, `BAUD` is the construction value (40000 by default),
`INIT_DONE` 1, the phase `IDLE`, the sink trace of this reset `[SinkInit(BAUD)]`, and the response trace of this reset empty. -/
def Obligations.StartUpState : Prop :=
  ∀ (n : Nat) (s u t : State), s.phase = .reset → s.nextMove = .releaseReset → step s = .next u → u.NoReset →
    run n u = .next t → t.initDone = true → (∀ m < n, ∀ v, run m u = .next v → v.initDone = false) →
    t.baud = (if s.cfgBaudGiven then s.cfgBaud else 40000#32) ∧ t.initDone = true ∧ t.phase = .idle ∧
      t.sinkTrace = s.sinkTrace ++ [.sinkInit t.baud] ∧ t.rspTrace = s.rspTrace ∧ t.taken = s.taken

/-- The start-up with nothing scripted and a sink that is ready takes two steps, with `cfg_baud` given or not (R136, R137,
R140). That `rst` is released by the first of them is the model's choice (log row 1). -/
def Obligations.StartUpInTwoSteps : Prop :=
  ∀ s : State, s.params.valid = true → s.refused = none → s.phase = .reset → s.script = [] → s.snkReady = true →
    ∃ t, run 2 s = .next t ∧
      t.baud = (if s.cfgBaudGiven then s.cfgBaud else 40000#32) ∧ t.initDone = true ∧ t.phase = .idle ∧
      t.sinkTrace = s.sinkTrace ++ [.sinkInit t.baud] ∧ t.rspTrace = s.rspTrace ∧ t.taken = s.taken

/-- From the state right after reset, with nothing presented: two steps, and the block is ready at 40000 with one `SinkInit`
in its sink trace (R30, R136, R137). State.reset is the model's where the spec gives no value, and the claim rests on it: the
phase `RESET` with a ready sink (log row 7), the empty script whose first move releases `rst` (log row 1), `cfg_baud_given` = 0
and so 40000 (log row 6), and RB0, which makes the parameters valid (log row 2). -/
def Obligations.ResetStateStartsUp : Prop :=
  State.reset.phase = .reset ∧ State.reset.initDone = false ∧ State.reset.refused = none ∧
    State.reset.baud = 40000#32 ∧
    ∃ t, run 2 State.reset = .next t ∧ t.cmdReady = true ∧ t.baud = 40000#32 ∧ t.sinkTrace = [.sinkInit 40000#32] ∧
      t.rspTrace = []

/-- At most one `SinkInit` per reset (R138): from an initialised block, whatever the host, the sink and the commands do, no
run without a reset offers another, and `INIT_DONE` stays 1 (R24). -/
def Obligations.NoSecondSinkInit : Prop :=
  ∀ (n : Nat) (s t : State), s.Inv → s.initDone = true → s.NoReset → run n s = .next t →
    countInits t.sinkTrace = countInits s.sinkTrace ∧ t.initDone = true ∧ t.NoReset ∧ t.baud = s.baud

/-- Nothing but reset writes `BAUD` and clears `INIT_DONE`, and only the sink's acceptance of `SinkInit` sets it (R23, R24,
R130); no step writes the parameters. -/
def Obligations.OnlyResetWritesControl : Prop :=
  ∀ s t : State, step s = .next t →
    t.params = s.params ∧
    (t.baud ≠ s.baud → s.phase = .reset ∧ s.nextMove = .releaseReset) ∧
    (s.initDone = true ∧ t.initDone = false →
      s.nextMove = .assertReset ∨ s.phase = .reset ∧ s.nextMove = .releaseReset) ∧
    (s.initDone = false ∧ t.initDone = true →
      s.phase = .init ∧ s.snkReady = true ∧ t.sinkTrace = s.sinkTrace ++ [.sinkInit s.baud])

/-! ### Sequencing, ordering and waits (10_state.md R26; 20_memory.md R46 to R52; 60_exceptions.md R120, R123) -/

/-- A sink that does not accept holds the framer (R123): a hang is a state that every step leaves as it is. That
the model answers such a step with the same state, where the spec gives none, is the model's choice (log row 13). -/
def Obligations.HangStaysAsItIs : Prop :=
  ∀ (n : Nat) (s : State), s.params.valid = true → s.refused = none → s.Hung → run n s = .next s

/-- Outside `IDLE` with `INIT_DONE` = 1 the command port accepts nothing, and a host offer waits (R26, R120). -/
def Obligations.OffersWait : Prop :=
  ∀ s t : State, step s = .next t → s.cmdReady = false → t.taken = s.taken ∧ s.offers <+: t.offers

/-- In `BUSY` the next byte goes out when the sink accepts it, and nothing else changes; after the last byte the response is
delivered and the phase is `IDLE` (R26, R50). While the sink does not accept, the framer's move answers the same state, where
R26 and R123 give it no step: the model's choice (log row 13). -/
def Obligations.BusyTransitions : Prop :=
  ∀ s : State, s.params.valid = true → s.refused = none → s.phase = .busy → s.nextMove = .framer →
    (∀ b, s.frame[s.idx]? = some b → s.snkReady = true →
      step s = .next { s with
        sinkTrace := s.sinkTrace ++ [.emit b]
        idx := s.idx + 1
        script := s.script.tail }) ∧
    (s.idx < s.frame.length → s.snkReady = false → step s = .next { s with script := s.script.tail }) ∧
    (s.idx = s.frame.length →
      ∃ t, step s = .next t ∧ t.phase = .idle ∧ t.rspTrace = s.rspTrace ++ [⟨s.taken.length, s.pend⟩] ∧
        t.sinkTrace = s.sinkTrace ∧ t.baud = s.baud ∧ t.initDone = s.initDone ∧ t.refused = none ∧
        t.offers = s.offers ∧ t.taken = s.taken ∧ t.params = s.params)

/-- The response to a command that emits a frame is delivered only after the sink has accepted the last byte (R50): in `BUSY`
a step that delivers has no byte left to offer, and the whole frame is the end of the sink trace. -/
def Obligations.ResponseAfterLastByte : Prop :=
  ∀ s t : State, s.Inv → s.phase = .busy → step s = .next t → t.rspTrace ≠ s.rspTrace →
    s.idx = s.frame.length ∧ s.frame.map SinkEvent.emit <:+ s.sinkTrace ∧
      t.rspTrace = s.rspTrace ++ [⟨s.taken.length, s.pend⟩]

/-- No event is taken back, lost or reordered, and none is delivered in part (R41, R48, R52): a step extends each trace by at
most one event, and never both the sink trace and the response trace. -/
def Obligations.TracesOnlyGrow : Prop :=
  ∀ s t : State, step s = .next t →
    (t.sinkTrace = s.sinkTrace ∨ ∃ e, t.sinkTrace = s.sinkTrace ++ [e]) ∧
    (t.rspTrace = s.rspTrace ∨ ∃ a, t.rspTrace = s.rspTrace ++ [a]) ∧
    (t.taken = s.taken ∨ ∃ w, t.taken = s.taken ++ [w] ∧ s.offers = w :: t.offers) ∧
    (t.sinkTrace = s.sinkTrace ∨ t.rspTrace = s.rspTrace)

/-- The sink's two valids are never 1 together, neither is 1 with `cmd_ready`, and all are 0 while `rst` is asserted (R55,
R135). -/
def Obligations.PortsExclusive : Prop :=
  ∀ s : State,
    ¬ (s.snkInitValid = true ∧ s.snkByteValid = true) ∧
    ¬ (s.cmdReady = true ∧ (s.snkInitValid = true ∨ s.snkByteValid = true)) ∧
    (s.rst = true → s.cmdReady = false ∧ s.snkInitValid = false ∧ s.snkByteValid = false)

/-! ### The invariant and the traces since a reset -/

/-- The invariant of the state record holds right after reset (10_state.md, the state record). State.reset is the model's
where the spec gives no value, and the claim rests on it: RB0, which makes the parameters valid (log row 2), and `FRAME` = `[]`
with `IDX` = 0, which puts the two in their ranges (log row 4; R30 leaves them unspecified). -/
def Obligations.ResetMeetsInvariant : Prop := State.reset.Inv

/-- Every step keeps the invariant, whichever agent moves (10_state.md, the state record; R24, R26, R50, R139). -/
def Obligations.StepKeepsInvariant : Prop :=
  ∀ s t : State, s.Inv → step s = .next t → t.Inv

/-- A step that asserts reset, in any phase, starts the stream anew (R30, R139, R140): what the sink accepted and the host
received before it stays, and since it there is no event, no accepted word and no response. -/
def Obligations.StreamStartsAtReset : Prop :=
  ∀ s t : State, s.nextMove = .assertReset → step s = .next t → t.StreamSince s.sinkTrace s.taken s.rspTrace

/-- Every step that asserts no reset keeps the order of the stream (R47, R50, R52): since a reset the sink trace is one
`SinkInit(BAUD)` and then the frames of the accepted words, in acceptance order, contiguous, each once, the one under way
up to `IDX`; and the response trace is the responses of the commands done, in that order, each with its command's number. -/
def Obligations.StepKeepsStream : Prop :=
  ∀ (events : List SinkEvent) (words : List CmdWord) (responses : List Answered) (s t : State),
    s.StreamSince events words responses → s.nextMove ≠ .assertReset → step s = .next t →
    t.StreamSince events words responses

/-- A ready block runs any sequence of words it gives a meaning (R26, R46, R47, R50): after the steps its commands take, with
a sink that accepts every event, the sink trace has grown by exactly their frames in order, the response trace by exactly
their responses in order, every word is taken, and the block is `IDLE` with `BAUD`, `INIT_DONE` and `P` as they were. -/
def Obligations.CommandSequenceRuns : Prop :=
  ∀ (s : State) (ws rest : List CmdWord),
    s.params.valid = true → s.refused = none → s.script = [] → s.snkReady = true → s.phase = .idle → s.initDone = true →
    s.offers = ws ++ rest → (∀ w ∈ ws, Accepted s.params w) →
    ∃ t, run ((ws.map (wordSteps s.params)).sum) s = .next t ∧
      t.sinkTrace = s.sinkTrace ++ (ws.flatMap (wordBytes s.params)).map SinkEvent.emit ∧
      t.rspTrace = s.rspTrace ++ answers s.params (s.taken.length + 1) ws ∧
      t.taken = s.taken ++ ws ∧ t.offers = rest ∧
      t.phase = .idle ∧ t.initDone = true ∧ t.baud = s.baud ∧ t.params = s.params ∧ t.refused = none ∧
      t.script = [] ∧ t.snkReady = true

/-! ### The assembler (30_encoding.md R73 to R76) -/

/-- Reading the canonical line of any word gives the word back (R76), and for a word that matches a row the line is one of
the assembler's own language. The `.word` directive is read beside that language (log row 14). -/
def Obligations.PrintedWordReadsBack : Prop :=
  ∀ w : CmdWord,
    Asm.readLine (Asm.printWord w) = .ok w ∧
    ∀ i, decode w = .ok i → Asm.assembleLine (Asm.printWord w) = .ok w

/-- No line of the assembly language produces a word that R59 or R60 refuses (R74). -/
def Obligations.AssembledWordsDecode : Prop :=
  ∀ (line : List Char) (w : CmdWord), Asm.assembleLine line = .ok w →
    ∃ i, Asm.parseInstr line = .ok i ∧ decode w = .ok i

/-- The short forms of R75, on the examples of 95_test_vectors.md and the defaults of each command. -/
def Obligations.AssemblerDefaults : Prop :=
  Asm.assembleLine "setSpeed 5".toList = Asm.assembleLine "setSpeed 5, 0".toList ∧
  Asm.assembleLine "setPosition 5".toList = Asm.assembleLine "setPosition 5, 0".toList ∧
  Asm.assembleLine "setPositionAbsolute 5".toList = Asm.assembleLine "setPositionAbsolute 5, 500".toList ∧
  Asm.assembleLine "setNeutral 0".toList = .ok 0x5000000BB8#40 ∧
  Asm.assembleLine "configureServo 0".toList = .ok 0x0C0000000F#40 ∧
  Asm.assembleLine "configureServo 0, false".toList = .ok 0x040000000F#40 ∧
  Asm.assembleLine "configureServo 0, true, false".toList = .ok 0x080000000F#40 ∧
  Asm.assembleLine "setServoNumberBaseNumber".toList = .ok 0x8000000000#40
end

