-- ==== Sys2Proof/Laws/Assembler.lean ====
section
/-!
SUPPORT. Lemmas of the assembler's text functions: trimming, splitting at commas, and reading back printed operands.
-/
namespace Sys2Proof.Asm

/-- A character that can stand in a printed operand or mnemonic: no blank, no comma. -/
def Plain (c : Char) : Prop := isBlank c = false ∧ (c == ',') = false

theorem trim_of_ends {l : List Char} (h1 : ∀ c ∈ l.head?, isBlank c = false)
    (h2 : ∀ c ∈ l.getLast?, isBlank c = false) : trim l = l := by
  have hd : ∀ m : List Char, (∀ c ∈ m.head?, isBlank c = false) → m.dropWhile isBlank = m := by
    intro m hm
    cases m with
    | nil => rfl
    | cons c cs => rw [List.dropWhile_cons_of_neg]; simp [hm c (by simp)]
  rw [trim, hd l h1, hd l.reverse (by simpa using h2), List.reverse_reverse]

/-- Trimming leaves a text of plain characters as it is. -/
theorem trim_plain {l : List Char} (h : ∀ c ∈ l, Plain c) : trim l = l :=
  trim_of_ends (fun c hc => (h c (List.mem_of_mem_head? hc)).1) (fun c hc => (h c (List.mem_of_getLast? hc)).1)

/-- Trimming drops a leading space. -/
theorem trim_space (l : List Char) : trim (' ' :: l) = trim l := by
  rw [trim, trim, List.dropWhile_cons_of_pos (by rfl)]

/-- There is always a first part. -/
theorem splitCommas_parts (l : List Char) : ∃ part parts, splitCommas l = part :: parts := by
  induction l with
  | nil => exact ⟨_, _, rfl⟩
  | cons c cs ih =>
    obtain ⟨part, parts, h⟩ := ih
    rw [splitCommas, h]
    by_cases hc : (c == ',') = true
    · exact ⟨[], part :: parts, if_pos hc⟩
    · exact ⟨c :: part, parts, if_neg hc⟩

/-- A character that is no comma joins the first part. -/
theorem splitCommas_cons {c : Char} {l part : List Char} {parts : List (List Char)} (h : (c == ',') = false)
    (hl : splitCommas l = part :: parts) : splitCommas (c :: l) = (c :: part) :: parts := by
  simp only [splitCommas, hl, h, Bool.false_eq_true, if_false]

/-- A comma ends the first part. -/
theorem splitCommas_comma (l : List Char) : splitCommas (',' :: l) = [] :: splitCommas l := by
  obtain ⟨part, parts, h⟩ := splitCommas_parts l
  simp only [splitCommas, h, beq_self_eq_true, if_true]

theorem splitCommas_plain {l : List Char} (h : ∀ c ∈ l, Plain c) : splitCommas l = [l] := by
  induction l with
  | nil => rfl
  | cons c cs ih => exact splitCommas_cons (h c (by simp)).2 (ih fun x hx => h x (List.mem_cons_of_mem _ hx))

theorem splitCommas_append {l m : List Char} (h : ∀ c ∈ l, Plain c) :
    splitCommas (l ++ ',' :: m) = l :: splitCommas m := by
  induction l with
  | nil => exact splitCommas_comma m
  | cons c cs ih => exact splitCommas_cons (h c (by simp)).2 (ih fun x hx => h x (List.mem_cons_of_mem _ hx))

/-- A leading space stays in the first part, and is trimmed away with it. -/
theorem map_trim_splitCommas_space (l : List Char) : (splitCommas (' ' :: l)).map trim = (splitCommas l).map trim := by
  obtain ⟨part, parts, h⟩ := splitCommas_parts l
  rw [splitCommas_cons (by rfl) h, h, List.map_cons, List.map_cons, trim_space]

/-- Printed operands are split and trimmed back into themselves. -/
theorem map_trim_printOperands : ∀ ops : List (List Char), ops ≠ [] → (∀ o ∈ ops, ∀ c ∈ o, Plain c) →
    (splitCommas (printOperands ops)).map trim = ops
  | [], h, _ => absurd rfl h
  | [a], _, h => by
    rw [printOperands, splitCommas_plain (h a (by simp))]
    simp [trim_plain (h a (by simp))]
  | a :: b :: rest, _, h => by
    rw [printOperands, show a ++ ", ".toList ++ printOperands (b :: rest) = a ++ ',' :: ' ' :: printOperands (b :: rest) by
      simp, splitCommas_append (h a (by simp)), List.map_cons, map_trim_splitCommas_space,
      map_trim_printOperands (b :: rest) (by simp) fun o ho => h o (List.mem_cons_of_mem _ ho), trim_plain (h a (by simp))]

/-- Reading on after some digits. -/
theorem readDigits_append (base : Nat) (l m : List Char) (acc : Nat) :
    readDigits base (l ++ m) acc = (readDigits base l acc).bind (readDigits base m) := by
  induction l generalizing acc with
  | nil => rfl
  | cons c cs ih =>
    rw [List.cons_append, readDigits, readDigits]
    cases digitValue base c with
    | none => rfl
    | some d => exact ih _

/-- A printed decimal digit reads back. -/
theorem digitValue_ten : ∀ d < 10, digitValue 10 (digitChar d) = some d := by decide

/-- A printed hexadecimal digit reads back. -/
theorem digitValue_sixteen : ∀ d < 16, digitValue 16 (digitChar d) = some d := by decide

/-- A printed digit is a plain character. -/
theorem digitChar_plain : ∀ d < 16, isBlank (digitChar d) = false ∧ (digitChar d == ',') = false ∧ digitChar d ≠ 'x' := by
  decide

/-- The decimal digits of a number read back as it. -/
theorem readDigits_decDigits (fuel : Nat) : ∀ n < 10 ^ fuel, readDigits 10 (decDigits fuel n) 0 = some n := by
  induction fuel with
  | zero => intro n hn; simp at hn; subst hn; rfl
  | succ f ih =>
    intro n hn
    rw [decDigits]
    split
    · simp [readDigits, digitValue_ten n ‹_›]
    · rw [readDigits_append, ih (n / 10) (by rw [Nat.pow_succ] at hn; omega)]
      simp only [Option.bind_some, readDigits, digitValue_ten (n % 10) (Nat.mod_lt _ (by decide))]
      congr 1; omega

/-- Exactly `count` hexadecimal digits of a number read back as it. -/
theorem readDigits_fixedDigits (count : Nat) :
    ∀ n < 16 ^ count, readDigits 16 (fixedDigits 16 count n) 0 = some n := by
  induction count with
  | zero => intro n hn; simp at hn; subst hn; rfl
  | succ f ih =>
    intro n hn
    rw [fixedDigits, readDigits_append, ih (n / 16) (by rw [Nat.pow_succ] at hn; omega)]
    simp only [Option.bind_some, readDigits, digitValue_sixteen (n % 16) (Nat.mod_lt _ (by decide))]
    congr 1; omega

theorem fixedDigits_length (count n : Nat) : (fixedDigits 16 count n).length = count := by
  induction count generalizing n with
  | zero => rfl
  | succ c ih => simp [fixedDigits, ih]

theorem decDigits_chars (fuel : Nat) : ∀ n, ∀ c ∈ decDigits fuel n, Plain c ∧ c ≠ 'x' := by
  induction fuel with
  | zero => intro n c hc; simp [decDigits] at hc
  | succ f ih =>
    intro n c hc
    rw [decDigits] at hc
    split at hc
    · simp at hc; subst hc
      have := digitChar_plain n (by omega); exact ⟨⟨this.1, this.2.1⟩, this.2.2⟩
    · rcases List.mem_append.1 hc with h | h
      · exact ih _ c h
      · simp at h; subst h
        have := digitChar_plain (n % 10) (by omega); exact ⟨⟨this.1, this.2.1⟩, this.2.2⟩

theorem decDigits_ne_nil (fuel n : Nat) : decDigits (fuel + 1) n ≠ [] := by
  rw [decDigits]; split <;> simp

/-- A text of digits without an `x` is read as decimal. -/
theorem readInt_decimal {l : List Char} (h : l ≠ []) (hx : ∀ c ∈ l, c ≠ 'x') : readInt l = readDigits 10 l 0 := by
  match l, h, hx with
  | [c], _, _ => unfold readInt; split <;> simp_all
  | c :: d :: rest, _, hx =>
    have : d ≠ 'x' := hx d (by simp)
    unfold readInt
    split <;> simp_all

/-- A printed integer operand reads back. -/
theorem intOperand_printInt {n : Nat} (h : n < 65536) : intOperand (printInt n) = .ok n := by
  have hd : readInt (printInt n) = some n := by
    rw [printInt, readInt_decimal (decDigits_ne_nil 4 n) fun c hc => (decDigits_chars 5 n c hc).2,
      readDigits_decDigits 5 n (by omega)]
  rw [intOperand, hd]
  exact if_pos h

/-- A printed flag operand reads back. -/
theorem flagOperand_printFlag (b : Bool) : flagOperand (printFlag b) = .ok b := by cases b <;> decide

end Sys2Proof.Asm
end

