-- ==== Sys2Proof/Laws/Decode.lean ====
section
/-!
SUPPORT. The fields of a written word, and what the decoder's answer says about a word.
-/
namespace Sys2Proof

/-- The number a word `O E AAAA VVVV` with digits in range denotes. -/
theorem mkWord_toNat {op e a v : Nat} (ho : op < 16) (he : e < 16) (ha : a < 65536) (hv : v < 65536) :
    (mkWord op e a v).toNat = op * 2 ^ 36 + e * 2 ^ 32 + a * 2 ^ 16 + v := by
  simp only [mkWord, BitVec.toNat_ofNat]
  omega

section
variable {op e a v : Nat} (ho : op < 16) (he : e < 16) (ha : a < 65536) (hv : v < 65536)
include ho he ha hv

theorem opOf_mkWord : opOf (mkWord op e a v) = op := by
  simp only [opOf, bitsOf, mkWord_toNat ho he ha hv]; omega

theorem flagsOf_mkWord : flagsOf (mkWord op e a v) = e := by
  simp only [flagsOf, bitsOf, mkWord_toNat ho he ha hv]; omega

theorem rsvOf_mkWord : rsvOf (mkWord op e a v) = e % 4 := by
  simp only [rsvOf, bitsOf, mkWord_toNat ho he ha hv]; omega

theorem argA_mkWord : argA (mkWord op e a v) = a := by
  simp only [argA, bitsOf, mkWord_toNat ho he ha hv]; omega

theorem argV_mkWord : argV (mkWord op e a v) = v := by
  simp only [argV, bitsOf, mkWord_toNat ho he ha hv]; omega

theorem enOf_mkWord : enOf (mkWord op e a v) = decide (e / 8 = 1) := by
  rw [Bool.eq_iff_iff]; simp only [enOf, bitsOf, mkWord_toNat ho he ha hv, beq_iff_eq, decide_eq_true_eq]; omega

theorem fwdOf_mkWord : fwdOf (mkWord op e a v) = decide (e / 4 % 2 = 1) := by
  rw [Bool.eq_iff_iff]; simp only [fwdOf, bitsOf, mkWord_toNat ho he ha hv, beq_iff_eq, decide_eq_true_eq]; omega

end

/-- Every word is written by its fields. -/
theorem mkWord_fields (w : CmdWord) : mkWord (opOf w) (flagsOf w) (argA w) (argV w) = w := by
  apply BitVec.eq_of_toNat_eq
  simp only [mkWord, opOf, flagsOf, argA, argV, bitsOf, BitVec.toNat_ofNat]
  have := w.isLt
  omega

theorem opOf_lt (w : CmdWord) : opOf w < 16 := Nat.mod_lt _ (by decide)

theorem flagsOf_lt (w : CmdWord) : flagsOf w < 16 := Nat.mod_lt _ (by decide)

theorem argA_lt (w : CmdWord) : argA w < 65536 := Nat.mod_lt _ (by decide)

theorem argV_lt (w : CmdWord) : argV w < 65536 := Nat.mod_lt _ (by decide)

theorem rsvOf_eq (w : CmdWord) : rsvOf w = flagsOf w % 4 := by
  simp only [rsvOf, flagsOf, bitsOf]; omega

/-- Digit `E` of a word whose `RSV` is 0 holds the two flags (R56). -/
theorem flagDigit_of_rsv_zero (w : CmdWord) (h : rsvOf w = 0) : flagDigit (enOf w) (fwdOf w) = flagsOf w := by
  have hx := rsvOf_eq w
  have hlt := flagsOf_lt w
  have he : enOf w = decide (flagsOf w / 8 = 1) := by
    rw [Bool.eq_iff_iff]; simp only [enOf, beq_iff_eq, decide_eq_true_eq]; simp only [flagsOf, bitsOf]; omega
  have hf : fwdOf w = decide (flagsOf w / 4 % 2 = 1) := by
    rw [Bool.eq_iff_iff]; simp only [fwdOf, beq_iff_eq, decide_eq_true_eq]; simp only [flagsOf, bitsOf]; omega
  rw [he, hf]
  unfold flagDigit
  by_cases h1 : flagsOf w / 8 = 1 <;> by_cases h2 : flagsOf w / 4 % 2 = 1 <;> simp [h1, h2] <;> omega

@[simp] theorem whenUnusedZero_ok {b : Bool} {i j : Instr} :
    whenUnusedZero b i = .ok j ↔ b = true ∧ i = j := by
  cases b <;> simp [whenUnusedZero]

@[simp] theorem whenUnusedZero_error {b : Bool} {i : Instr} {r : RefuseReason} :
    whenUnusedZero b i = .error r ↔ b = false ∧ r = .nonzeroUnusedField := by
  cases b <;> simp [whenUnusedZero, eq_comm]

/-! ### The decoder, by `OP` (R58, R59) -/

theorem decode_configureServo {w : CmdWord} (h : opOf w = 0x0) :
    decode w = whenUnusedZero (rsvOf w == 0) (.configureServo (argA w) (enOf w) (fwdOf w) (argV w)) := by
  simp only [decode, h]

theorem decode_setSpeed {w : CmdWord} (h : opOf w = 0x1) :
    decode w = whenUnusedZero (flagsOf w == 0) (.setSpeed (argA w) (argV w)) := by
  simp only [decode, h]

theorem decode_setPosition {w : CmdWord} (h : opOf w = 0x3) :
    decode w = whenUnusedZero (flagsOf w == 0) (.setPosition (argA w) (argV w)) := by
  simp only [decode, h]

theorem decode_setPositionAbsolute {w : CmdWord} (h : opOf w = 0x4) :
    decode w = whenUnusedZero (flagsOf w == 0) (.setPositionAbsolute (argA w) (argV w)) := by
  simp only [decode, h]

theorem decode_setNeutral {w : CmdWord} (h : opOf w = 0x5) :
    decode w = whenUnusedZero (flagsOf w == 0) (.setNeutral (argA w) (argV w)) := by
  simp only [decode, h]

theorem decode_setServoNumberBaseNumber {w : CmdWord} (h : opOf w = 0x8) :
    decode w = whenUnusedZero (flagsOf w == 0 && argV w == 0) (.setServoNumberBaseNumber (argA w)) := by
  simp only [decode, h]

theorem decode_blinkServoNumberBaseNumber {w : CmdWord} (h : opOf w = 0x9) :
    decode w = whenUnusedZero (flagsOf w == 0 && argA w == 0 && argV w == 0) .blinkServoNumberBaseNumber := by
  simp only [decode, h]

theorem decode_isValidServoId {w : CmdWord} (h : opOf w = 0xA) :
    decode w = whenUnusedZero (flagsOf w == 0 && argV w == 0) (.isValidServoId (argA w)) := by
  simp only [decode, h]

theorem decode_reserved {w : CmdWord} (h : opOf w ∈ reservedOps) : decode w = .error .reservedOp := by
  simp only [reservedOps, List.mem_cons, List.not_mem_nil, or_false] at h
  rcases h with h | h | h | h | h | h | h | h <;> simp only [decode, h]

/-- The values of `OP`: one of the eight operations' (R58) or a reserved one (R59). -/
theorem opOf_cases (w : CmdWord) :
    opOf w = 0x0 ∨ opOf w = 0x1 ∨ opOf w = 0x3 ∨ opOf w = 0x4 ∨ opOf w = 0x5 ∨ opOf w = 0x8 ∨ opOf w = 0x9 ∨
      opOf w = 0xA ∨ opOf w ∈ reservedOps := by
  have := opOf_lt w
  simp only [reservedOps, List.mem_cons, List.not_mem_nil, or_false]
  omega

/-! ### The masks of R58, as fields -/

/-- Masking with a shifted mask is masking the shifted number. -/
theorem and_shiftLeft (x m k : Nat) : x &&& (m <<< k) = ((x >>> k) &&& m) <<< k := by
  apply Nat.eq_of_testBit_eq
  intro i
  simp only [Nat.testBit_and, Nat.testBit_shiftLeft, Nat.testBit_shiftRight]
  by_cases h : k ≤ i
  · simp [h, Nat.add_sub_cancel' h]
  · simp [h]

/-- Masking with `n` one bits at bit `k` keeps the field there. -/
theorem and_ones (x n k : Nat) : x &&& ((2 ^ n - 1) <<< k) = x / 2 ^ k % 2 ^ n * 2 ^ k := by
  rw [and_shiftLeft, Nat.and_two_pow_sub_one_eq_mod, Nat.shiftLeft_eq, Nat.shiftRight_eq_div_pow]

/-- Masking with a field above and a field at bit 0. -/
theorem and_two_fields (x n k m l : Nat) (h : m + l ≤ k) :
    x &&& ((2 ^ n - 1) <<< k ||| (2 ^ m - 1) <<< l) = x / 2 ^ k % 2 ^ n * 2 ^ k + x / 2 ^ l % 2 ^ m * 2 ^ l := by
  have hlt : x / 2 ^ l % 2 ^ m * 2 ^ l < 2 ^ k := by
    calc x / 2 ^ l % 2 ^ m * 2 ^ l < 2 ^ m * 2 ^ l :=
          Nat.mul_lt_mul_of_pos_right (Nat.mod_lt _ (Nat.two_pow_pos m)) (Nat.two_pow_pos l)
      _ = 2 ^ (m + l) := (Nat.pow_add ..).symm
      _ ≤ 2 ^ k := Nat.pow_le_pow_right (by decide) h
  rw [Nat.and_or_distrib_left, and_ones, and_ones, ← Nat.shiftLeft_eq _ k, Nat.shiftLeft_add_eq_or_of_lt hlt]

/-- `w` selects a row iff the masked numbers agree. -/
theorem selects_iff_toNat (r : Row) (w : CmdWord) :
    r.selects w = true ↔ w.toNat &&& r.mask.toNat = r.pattern.toNat := by
  rw [Row.selects, beq_iff_eq, ← BitVec.toNat_inj, BitVec.toNat_and]

/-- A row of mask `0xFF00000000`: its `OP`, and a zero digit `E`. -/
theorem selects_plain {n : String} {m : CmdWord} {op : Nat} (hm : m.toNat = op * 2 ^ 36) (w : CmdWord) :
    (Row.mk n m 0xFF00000000#40).selects w = true ↔ opOf w = op ∧ flagsOf w = 0 := by
  rw [selects_iff_toNat, hm, show (0xFF00000000#40).toNat = (2 ^ 8 - 1) <<< 32 by decide, and_ones]
  simp only [opOf, flagsOf, bitsOf]
  omega

/-- The row of mask `0xF300000000`: its `OP`, and a zero `RSV`. -/
theorem selects_flags {n : String} {m : CmdWord} {op : Nat} (hm : m.toNat = op * 2 ^ 36) (w : CmdWord) :
    (Row.mk n m 0xF300000000#40).selects w = true ↔ opOf w = op ∧ rsvOf w = 0 := by
  rw [selects_iff_toNat, hm, show (0xF300000000#40).toNat = (2 ^ 4 - 1) <<< 36 ||| (2 ^ 2 - 1) <<< 32 by decide,
    and_two_fields _ _ _ _ _ (by decide)]
  simp only [opOf, rsvOf, bitsOf]
  omega

/-- A row of mask `0xFF0000FFFF`: its `OP`, a zero digit `E` and a zero `V`. -/
theorem selects_noV {n : String} {m : CmdWord} {op : Nat} (hm : m.toNat = op * 2 ^ 36) (w : CmdWord) :
    (Row.mk n m 0xFF0000FFFF#40).selects w = true ↔ opOf w = op ∧ flagsOf w = 0 ∧ argV w = 0 := by
  rw [selects_iff_toNat, hm, show (0xFF0000FFFF#40).toNat = (2 ^ 8 - 1) <<< 32 ||| (2 ^ 16 - 1) <<< 0 by decide,
    and_two_fields _ _ _ _ _ (by decide)]
  simp only [opOf, flagsOf, argV, bitsOf]
  omega

/-- A row of mask `0xFFFFFFFFFF`: its `OP`, and zero everywhere else. -/
theorem selects_whole {n : String} {m : CmdWord} {op : Nat} (hm : m.toNat = op * 2 ^ 36) (w : CmdWord) :
    (Row.mk n m 0xFFFFFFFFFF#40).selects w = true ↔ opOf w = op ∧ flagsOf w = 0 ∧ argA w = 0 ∧ argV w = 0 := by
  rw [selects_iff_toNat, hm, show (0xFFFFFFFFFF#40).toNat = (2 ^ 40 - 1) <<< 0 by decide, and_ones]
  have := w.isLt
  simp only [opOf, flagsOf, argA, argV, bitsOf]
  omega

/-- The rows a word selects, by its fields (R58). -/
theorem selects_rowOf (w : CmdWord) :
    ((rowOf (.configureServo 0 false false 0)).selects w = true ↔ opOf w = 0x0 ∧ rsvOf w = 0) ∧
    ((rowOf (.setSpeed 0 0)).selects w = true ↔ opOf w = 0x1 ∧ flagsOf w = 0) ∧
    ((rowOf (.setPosition 0 0)).selects w = true ↔ opOf w = 0x3 ∧ flagsOf w = 0) ∧
    ((rowOf (.setPositionAbsolute 0 0)).selects w = true ↔ opOf w = 0x4 ∧ flagsOf w = 0) ∧
    ((rowOf (.setNeutral 0 0)).selects w = true ↔ opOf w = 0x5 ∧ flagsOf w = 0) ∧
    ((rowOf (.setServoNumberBaseNumber 0)).selects w = true ↔ opOf w = 0x8 ∧ flagsOf w = 0 ∧ argV w = 0) ∧
    ((rowOf .blinkServoNumberBaseNumber).selects w = true ↔
      opOf w = 0x9 ∧ flagsOf w = 0 ∧ argA w = 0 ∧ argV w = 0) ∧
    ((rowOf (.isValidServoId 0)).selects w = true ↔ opOf w = 0xA ∧ flagsOf w = 0 ∧ argV w = 0) :=
  ⟨selects_flags (op := 0) (by decide) w, selects_plain (by decide) w, selects_plain (by decide) w,
    selects_plain (by decide) w, selects_plain (by decide) w, selects_noV (by decide) w, selects_whole (by decide) w,
    selects_noV (by decide) w⟩

/-- An operand fits its field iff it is below 65536. -/
@[simp] theorem fitsArg_iff (v : Nat) : fitsArg v = true ↔ v < 65536 := by
  rw [fitsArg, decide_eq_true_iff]; rfl

end Sys2Proof
end

