-- ==== Sys2Proof/Laws/Params.lean ====
section
/-!
SUPPORT. What a valid parameter record says, clause by clause (00_scope.md R3), and the ranges of extracted bits.
-/
namespace Sys2Proof

/-- The constraints of R3, as propositions. -/
structure Params.Constraints (p : Params) : Prop where
  sync : p.syncByte.msb = true
  devServo : p.devServo.msb = false
  devBase : p.devBase.msb = false
  blink : p.blinkCode.msb = false
  cmds : ∀ c ∈ p.cmdBytes, c.msb = false
  devices : p.devServo ≠ p.devBase
  cmds_distinct : p.cmdBytes.Nodup
  positions : ∀ k ∈ p.cfgPositions, k ≤ 6
  positions_distinct : p.cfgPositions.Nodup

/-- A record is valid iff the constraints hold. -/
theorem Params.valid_iff (p : Params) : p.valid = true ↔ p.Constraints := by
  constructor
  · intro h
    simp only [Params.valid, Bool.and_eq_true, List.all_append, List.all_cons, List.all_nil, List.all_eq_true,
      Bool.not_eq_true', decide_eq_true_eq, and_true] at h
    obtain ⟨⟨⟨⟨⟨⟨⟨h1, ⟨h2, h3, h4⟩, h5⟩, h6⟩, h7⟩, h8⟩, h9⟩, -⟩, -⟩ := h
    exact ⟨h1, h2, h3, h4, h5, h6, h7, h8, h9⟩
  · intro ⟨h1, h2, h3, h4, h5, h6, h7, h8, h9⟩
    simp only [Params.valid, Bool.and_eq_true, List.all_append, List.all_cons, List.all_nil, List.all_eq_true,
      Bool.not_eq_true', decide_eq_true_eq, and_true]
    exact ⟨⟨⟨⟨⟨⟨⟨h1, ⟨h2, h3, h4⟩, h5⟩, h6⟩, h7⟩, h8⟩, h9⟩, by decide⟩, by decide⟩

/-! The limits of R3, as numbers. -/

@[simp] theorem servoIdLimit_eq : servoIdLimit = 128 := rfl
@[simp] theorem speedMax_eq : speedMax = 127 := rfl
@[simp] theorem pos8Max_eq : pos8Max = 255 := rfl
@[simp] theorem absMin_eq : absMin = 500 := rfl
@[simp] theorem absMax_eq : absMax = 5500 := rfl
@[simp] theorem rangeMax_eq : rangeMax = 31 := rfl

/-- The servo-id check, as a bound (R85). -/
@[simp] theorem servoIdValid_iff (id : Nat) : servoIdValid id = true ↔ id < 128 := by
  rw [servoIdValid, decide_eq_true_iff]

/-- The position check, as bounds (R90). -/
@[simp] theorem absValid_iff (v : Nat) : absValid v = true ↔ 500 ≤ v ∧ v ≤ 5500 := by
  rw [absValid, Bool.and_eq_true, decide_eq_true_iff, decide_eq_true_iff]

/-- The base-number check, as a bound (R106). -/
@[simp] theorem baseValid_iff (p : Params) (b : Nat) : baseValid p b = true ↔ b ≤ p.baseMax.toNat := by
  rw [baseValid, decide_eq_true_iff]

/-- `BASE_MAX` is at most 16 (R106). -/
theorem BaseBound.toNat_le (b : BaseBound) : b.toNat ≤ 16 := by cases b <;> decide

/-- A byte below 128 has bit 7 clear. -/
theorem zext8_msb {v : Nat} (h : v < 128) : (zext8 v).msb = false := by
  rw [BitVec.msb_eq_false_iff_two_mul_lt, zext8, BitVec.toNat_ofNat]
  omega

/-- A field of `hi - lo + 1` bits is below two to that power. -/
theorem bitsOf_lt (v hi lo : Nat) : bitsOf v hi lo < 2 ^ (hi + 1 - lo) := Nat.mod_lt _ (Nat.two_pow_pos _)

end Sys2Proof
end

