-- ==== Sys2Proof/Laws/PerInstr.lean ====
section
/-!
SUPPORT. Family `FieldsRead`: the fields of a well-formed instruction's word read back as R57 and R58 say, one lemma per
constructor.
-/
namespace Sys2Proof.Laws.FieldsRead

/-- The word of a well-formed instruction carries the `OP` of its row of R58, a zero `RSV`, and zero in every field R57 marks
`0` for it. -/
def Statement (i : Instr) : Prop :=
  i.wf = true →
    opOf (encode i) = opOf (rowOf i).pattern ∧ rsvOf (encode i) = 0 ∧
      match i with
      | .configureServo id en fwd range =>
        argA (encode i) = id ∧ enOf (encode i) = en ∧ fwdOf (encode i) = fwd ∧ argV (encode i) = range
      | .setSpeed id speed => argA (encode i) = id ∧ argV (encode i) = speed ∧ flagsOf (encode i) = 0
      | .setPosition id position => argA (encode i) = id ∧ argV (encode i) = position ∧ flagsOf (encode i) = 0
      | .setPositionAbsolute id position => argA (encode i) = id ∧ argV (encode i) = position ∧ flagsOf (encode i) = 0
      | .setNeutral id position => argA (encode i) = id ∧ argV (encode i) = position ∧ flagsOf (encode i) = 0
      | .setServoNumberBaseNumber base => argA (encode i) = base ∧ argV (encode i) = 0 ∧ flagsOf (encode i) = 0
      | .blinkServoNumberBaseNumber => argA (encode i) = 0 ∧ argV (encode i) = 0 ∧ flagsOf (encode i) = 0
      | .isValidServoId id => argA (encode i) = id ∧ argV (encode i) = 0 ∧ flagsOf (encode i) = 0

/-- A word with a zero digit `E` reads back as its fields. -/
theorem plain {op a v : Nat} (ho : op < 16) (ha : a < 65536) (hv : v < 65536) :
    opOf (mkWord op 0 a v) = op ∧ rsvOf (mkWord op 0 a v) = 0 ∧ argA (mkWord op 0 a v) = a ∧
      argV (mkWord op 0 a v) = v ∧ flagsOf (mkWord op 0 a v) = 0 :=
  ⟨opOf_mkWord ho (by decide) ha hv, rsvOf_mkWord ho (by decide) ha hv, argA_mkWord ho (by decide) ha hv,
    argV_mkWord ho (by decide) ha hv, flagsOf_mkWord ho (by decide) ha hv⟩

/-- The `OP` of a row's match, read off its number. -/
theorem row_op (op : Nat) (w : CmdWord) (h : (op == opOf w) = true) : op = opOf w := beq_iff_eq.mp h

theorem configureServo (id : Nat) (en fwd : Bool) (range : Nat) : Statement (.configureServo id en fwd range) := by
  intro h
  simp only [Instr.wf, fitsArg, wArg, Bool.and_eq_true, decide_eq_true_eq] at h
  have he : flagDigit en fwd < 16 := by cases en <;> cases fwd <;> decide
  have h0 : (0x0 : Nat) < 16 := by decide
  refine ⟨(opOf_mkWord h0 he h.1 h.2).trans (row_op 0x0 0x0000000000#40 (by decide)), (rsvOf_mkWord h0 he h.1 h.2).trans ?_, argA_mkWord h0 he h.1 h.2,
    (enOf_mkWord h0 he h.1 h.2).trans ?_, (fwdOf_mkWord h0 he h.1 h.2).trans ?_, argV_mkWord h0 he h.1 h.2⟩ <;>
  cases en <;> cases fwd <;> decide

theorem setSpeed (id speed : Nat) : Statement (.setSpeed id speed) := by
  intro h
  simp only [Instr.wf, fitsArg, wArg, Bool.and_eq_true, decide_eq_true_eq] at h
  obtain ⟨h1, h2, h3, h4, h5⟩ := plain (op := 0x1) (by decide) h.1 h.2
  exact ⟨h1.trans (row_op 0x1 0x1000000000#40 (by decide)), h2, h3, h4, h5⟩

theorem setPosition (id position : Nat) : Statement (.setPosition id position) := by
  intro h
  simp only [Instr.wf, fitsArg, wArg, Bool.and_eq_true, decide_eq_true_eq] at h
  obtain ⟨h1, h2, h3, h4, h5⟩ := plain (op := 0x3) (by decide) h.1 h.2
  exact ⟨h1.trans (row_op 0x3 0x3000000000#40 (by decide)), h2, h3, h4, h5⟩

theorem setPositionAbsolute (id position : Nat) : Statement (.setPositionAbsolute id position) := by
  intro h
  simp only [Instr.wf, fitsArg, wArg, Bool.and_eq_true, decide_eq_true_eq] at h
  obtain ⟨h1, h2, h3, h4, h5⟩ := plain (op := 0x4) (by decide) h.1 h.2
  exact ⟨h1.trans (row_op 0x4 0x4000000000#40 (by decide)), h2, h3, h4, h5⟩

theorem setNeutral (id position : Nat) : Statement (.setNeutral id position) := by
  intro h
  simp only [Instr.wf, fitsArg, wArg, Bool.and_eq_true, decide_eq_true_eq] at h
  obtain ⟨h1, h2, h3, h4, h5⟩ := plain (op := 0x5) (by decide) h.1 h.2
  exact ⟨h1.trans (row_op 0x5 0x5000000000#40 (by decide)), h2, h3, h4, h5⟩

theorem setServoNumberBaseNumber (base : Nat) : Statement (.setServoNumberBaseNumber base) := by
  intro h
  simp only [Instr.wf, fitsArg, wArg, decide_eq_true_eq] at h
  obtain ⟨h1, h2, h3, h4, h5⟩ := plain (op := 0x8) (v := 0) (by decide) h (by decide)
  exact ⟨h1.trans (row_op 0x8 0x8000000000#40 (by decide)), h2, h3, h4, h5⟩

theorem blinkServoNumberBaseNumber : Statement .blinkServoNumberBaseNumber := by
  intro _
  obtain ⟨h1, h2, h3, h4, h5⟩ := plain (op := 0x9) (a := 0) (v := 0) (by decide) (by decide) (by decide)
  exact ⟨h1.trans (row_op 0x9 0x9000000000#40 (by decide)), h2, h3, h4, h5⟩

theorem isValidServoId (id : Nat) : Statement (.isValidServoId id) := by
  intro h
  simp only [Instr.wf, fitsArg, wArg, decide_eq_true_eq] at h
  obtain ⟨h1, h2, h3, h4, h5⟩ := plain (op := 0xA) (v := 0) (by decide) h (by decide)
  exact ⟨h1.trans (row_op 0xA 0xA000000000#40 (by decide)), h2, h3, h4, h5⟩

end Sys2Proof.Laws.FieldsRead
end

