-- ==== Sys2Proof/Laws/State.lean ====
section
/-!
SUPPORT. What each operation of Sys2Proof/Machine/Ops.lean does to each field of the state: one lemma per field per
operation, so that no proof unfolds a record update.
-/
namespace Sys2Proof.Machine

variable (s : State)

/-! ### respond -/

@[simp] theorem State.respond_params (r : Response) : (s.respond r).params = s.params := rfl
@[simp] theorem State.respond_baud (r : Response) : (s.respond r).baud = s.baud := rfl
@[simp] theorem State.respond_initDone (r : Response) : (s.respond r).initDone = s.initDone := rfl
@[simp] theorem State.respond_phase (r : Response) : (s.respond r).phase = s.phase := rfl
@[simp] theorem State.respond_frame (r : Response) : (s.respond r).frame = s.frame := rfl
@[simp] theorem State.respond_idx (r : Response) : (s.respond r).idx = s.idx := rfl
@[simp] theorem State.respond_pend (r : Response) : (s.respond r).pend = s.pend := rfl
@[simp] theorem State.respond_refused (r : Response) : (s.respond r).refused = s.refused := rfl
@[simp] theorem State.respond_cfgBaud (r : Response) : (s.respond r).cfgBaud = s.cfgBaud := rfl
@[simp] theorem State.respond_cfgBaudGiven (r : Response) : (s.respond r).cfgBaudGiven = s.cfgBaudGiven := rfl
@[simp] theorem State.respond_offers (r : Response) : (s.respond r).offers = s.offers := rfl
@[simp] theorem State.respond_snkReady (r : Response) : (s.respond r).snkReady = s.snkReady := rfl
@[simp] theorem State.respond_script (r : Response) : (s.respond r).script = s.script := rfl
@[simp] theorem State.respond_taken (r : Response) : (s.respond r).taken = s.taken := rfl
@[simp] theorem State.respond_sinkTrace (r : Response) : (s.respond r).sinkTrace = s.sinkTrace := rfl
@[simp] theorem State.respond_rspTrace (r : Response) : (s.respond r).rspTrace = s.rspTrace ++ [⟨s.taken.length, r⟩] := rfl
@[simp] theorem State.respond_freeCount (r : Response) : (s.respond r).freeCount = s.freeCount := rfl

/-! ### raise -/

@[simp] theorem State.raise_params (c : Int) : (s.raise c).params = s.params := rfl
@[simp] theorem State.raise_baud (c : Int) : (s.raise c).baud = s.baud := rfl
@[simp] theorem State.raise_initDone (c : Int) : (s.raise c).initDone = s.initDone := rfl
@[simp] theorem State.raise_phase (c : Int) : (s.raise c).phase = s.phase := rfl
@[simp] theorem State.raise_frame (c : Int) : (s.raise c).frame = s.frame := rfl
@[simp] theorem State.raise_idx (c : Int) : (s.raise c).idx = s.idx := rfl
@[simp] theorem State.raise_pend (c : Int) : (s.raise c).pend = s.pend := rfl
@[simp] theorem State.raise_refused (c : Int) : (s.raise c).refused = s.refused := rfl
@[simp] theorem State.raise_cfgBaud (c : Int) : (s.raise c).cfgBaud = s.cfgBaud := rfl
@[simp] theorem State.raise_cfgBaudGiven (c : Int) : (s.raise c).cfgBaudGiven = s.cfgBaudGiven := rfl
@[simp] theorem State.raise_offers (c : Int) : (s.raise c).offers = s.offers := rfl
@[simp] theorem State.raise_snkReady (c : Int) : (s.raise c).snkReady = s.snkReady := rfl
@[simp] theorem State.raise_script (c : Int) : (s.raise c).script = s.script := rfl
@[simp] theorem State.raise_taken (c : Int) : (s.raise c).taken = s.taken := rfl
@[simp] theorem State.raise_sinkTrace (c : Int) : (s.raise c).sinkTrace = s.sinkTrace := rfl
@[simp] theorem State.raise_rspTrace (c : Int) : (s.raise c).rspTrace = s.rspTrace ++ [⟨s.taken.length, .status c⟩] := rfl
@[simp] theorem State.raise_freeCount (c : Int) : (s.raise c).freeCount = s.freeCount := rfl

/-! ### markRefused -/

@[simp] theorem State.markRefused_params (r : RefuseReason) : (s.markRefused r).params = s.params := rfl
@[simp] theorem State.markRefused_baud (r : RefuseReason) : (s.markRefused r).baud = s.baud := rfl
@[simp] theorem State.markRefused_initDone (r : RefuseReason) : (s.markRefused r).initDone = s.initDone := rfl
@[simp] theorem State.markRefused_phase (r : RefuseReason) : (s.markRefused r).phase = s.phase := rfl
@[simp] theorem State.markRefused_frame (r : RefuseReason) : (s.markRefused r).frame = s.frame := rfl
@[simp] theorem State.markRefused_idx (r : RefuseReason) : (s.markRefused r).idx = s.idx := rfl
@[simp] theorem State.markRefused_pend (r : RefuseReason) : (s.markRefused r).pend = s.pend := rfl
@[simp] theorem State.markRefused_refused (r : RefuseReason) : (s.markRefused r).refused = some r := rfl
@[simp] theorem State.markRefused_cfgBaud (r : RefuseReason) : (s.markRefused r).cfgBaud = s.cfgBaud := rfl
@[simp] theorem State.markRefused_cfgBaudGiven (r : RefuseReason) : (s.markRefused r).cfgBaudGiven = s.cfgBaudGiven := rfl
@[simp] theorem State.markRefused_offers (r : RefuseReason) : (s.markRefused r).offers = s.offers := rfl
@[simp] theorem State.markRefused_snkReady (r : RefuseReason) : (s.markRefused r).snkReady = s.snkReady := rfl
@[simp] theorem State.markRefused_script (r : RefuseReason) : (s.markRefused r).script = s.script := rfl
@[simp] theorem State.markRefused_taken (r : RefuseReason) : (s.markRefused r).taken = s.taken := rfl
@[simp] theorem State.markRefused_sinkTrace (r : RefuseReason) : (s.markRefused r).sinkTrace = s.sinkTrace := rfl
@[simp] theorem State.markRefused_rspTrace (r : RefuseReason) : (s.markRefused r).rspTrace = s.rspTrace := rfl
@[simp] theorem State.markRefused_freeCount (r : RefuseReason) : (s.markRefused r).freeCount = s.freeCount := rfl

/-! ### startFrame -/

@[simp] theorem State.startFrame_params (f : List Byte) (r : Response) : (s.startFrame f r).params = s.params := rfl
@[simp] theorem State.startFrame_baud (f : List Byte) (r : Response) : (s.startFrame f r).baud = s.baud := rfl
@[simp] theorem State.startFrame_initDone (f : List Byte) (r : Response) : (s.startFrame f r).initDone = s.initDone := rfl
@[simp] theorem State.startFrame_phase (f : List Byte) (r : Response) : (s.startFrame f r).phase = .busy := rfl
@[simp] theorem State.startFrame_frame (f : List Byte) (r : Response) : (s.startFrame f r).frame = f := rfl
@[simp] theorem State.startFrame_idx (f : List Byte) (r : Response) : (s.startFrame f r).idx = 0 := rfl
@[simp] theorem State.startFrame_pend (f : List Byte) (r : Response) : (s.startFrame f r).pend = r := rfl
@[simp] theorem State.startFrame_refused (f : List Byte) (r : Response) : (s.startFrame f r).refused = s.refused := rfl
@[simp] theorem State.startFrame_cfgBaud (f : List Byte) (r : Response) : (s.startFrame f r).cfgBaud = s.cfgBaud := rfl
@[simp] theorem State.startFrame_cfgBaudGiven (f : List Byte) (r : Response) : (s.startFrame f r).cfgBaudGiven = s.cfgBaudGiven := rfl
@[simp] theorem State.startFrame_offers (f : List Byte) (r : Response) : (s.startFrame f r).offers = s.offers := rfl
@[simp] theorem State.startFrame_snkReady (f : List Byte) (r : Response) : (s.startFrame f r).snkReady = s.snkReady := rfl
@[simp] theorem State.startFrame_script (f : List Byte) (r : Response) : (s.startFrame f r).script = s.script := rfl
@[simp] theorem State.startFrame_taken (f : List Byte) (r : Response) : (s.startFrame f r).taken = s.taken := rfl
@[simp] theorem State.startFrame_sinkTrace (f : List Byte) (r : Response) : (s.startFrame f r).sinkTrace = s.sinkTrace := rfl
@[simp] theorem State.startFrame_rspTrace (f : List Byte) (r : Response) : (s.startFrame f r).rspTrace = s.rspTrace := rfl
@[simp] theorem State.startFrame_freeCount (f : List Byte) (r : Response) : (s.startFrame f r).freeCount = s.freeCount := rfl

/-! ### freeFrameFields -/

@[simp] theorem State.freeFrameFields_params : (s.freeFrameFields).params = s.params := rfl
@[simp] theorem State.freeFrameFields_baud : (s.freeFrameFields).baud = s.baud := rfl
@[simp] theorem State.freeFrameFields_initDone : (s.freeFrameFields).initDone = s.initDone := rfl
@[simp] theorem State.freeFrameFields_phase : (s.freeFrameFields).phase = s.phase := rfl
@[simp] theorem State.freeFrameFields_frame : (s.freeFrameFields).frame = (Config.freeFrame s.freeCount).take frameMax := rfl
@[simp] theorem State.freeFrameFields_idx : (s.freeFrameFields).idx = min (Config.freeIdx s.freeCount) ((Config.freeFrame s.freeCount).take frameMax).length := rfl
@[simp] theorem State.freeFrameFields_pend : (s.freeFrameFields).pend = Config.freePend s.freeCount := rfl
@[simp] theorem State.freeFrameFields_refused : (s.freeFrameFields).refused = s.refused := rfl
@[simp] theorem State.freeFrameFields_cfgBaud : (s.freeFrameFields).cfgBaud = s.cfgBaud := rfl
@[simp] theorem State.freeFrameFields_cfgBaudGiven : (s.freeFrameFields).cfgBaudGiven = s.cfgBaudGiven := rfl
@[simp] theorem State.freeFrameFields_offers : (s.freeFrameFields).offers = s.offers := rfl
@[simp] theorem State.freeFrameFields_snkReady : (s.freeFrameFields).snkReady = s.snkReady := rfl
@[simp] theorem State.freeFrameFields_script : (s.freeFrameFields).script = s.script := rfl
@[simp] theorem State.freeFrameFields_taken : (s.freeFrameFields).taken = s.taken := rfl
@[simp] theorem State.freeFrameFields_sinkTrace : (s.freeFrameFields).sinkTrace = s.sinkTrace := rfl
@[simp] theorem State.freeFrameFields_rspTrace : (s.freeFrameFields).rspTrace = s.rspTrace := rfl
@[simp] theorem State.freeFrameFields_freeCount : (s.freeFrameFields).freeCount = s.freeCount + 1 := rfl

/-! ### acceptInit -/

@[simp] theorem State.acceptInit_params : (s.acceptInit).params = s.params := rfl
@[simp] theorem State.acceptInit_baud : (s.acceptInit).baud = s.baud := rfl
@[simp] theorem State.acceptInit_initDone : (s.acceptInit).initDone = true := rfl
@[simp] theorem State.acceptInit_phase : (s.acceptInit).phase = .idle := rfl
@[simp] theorem State.acceptInit_frame : (s.acceptInit).frame = s.frame := rfl
@[simp] theorem State.acceptInit_idx : (s.acceptInit).idx = s.idx := rfl
@[simp] theorem State.acceptInit_pend : (s.acceptInit).pend = s.pend := rfl
@[simp] theorem State.acceptInit_refused : (s.acceptInit).refused = s.refused := rfl
@[simp] theorem State.acceptInit_cfgBaud : (s.acceptInit).cfgBaud = s.cfgBaud := rfl
@[simp] theorem State.acceptInit_cfgBaudGiven : (s.acceptInit).cfgBaudGiven = s.cfgBaudGiven := rfl
@[simp] theorem State.acceptInit_offers : (s.acceptInit).offers = s.offers := rfl
@[simp] theorem State.acceptInit_snkReady : (s.acceptInit).snkReady = s.snkReady := rfl
@[simp] theorem State.acceptInit_script : (s.acceptInit).script = s.script := rfl
@[simp] theorem State.acceptInit_taken : (s.acceptInit).taken = s.taken := rfl
@[simp] theorem State.acceptInit_sinkTrace : (s.acceptInit).sinkTrace = s.sinkTrace ++ [.sinkInit s.baud] := rfl
@[simp] theorem State.acceptInit_rspTrace : (s.acceptInit).rspTrace = s.rspTrace := rfl
@[simp] theorem State.acceptInit_freeCount : (s.acceptInit).freeCount = s.freeCount := rfl

/-! ### acceptByte -/

@[simp] theorem State.acceptByte_params (b : Byte) : (s.acceptByte b).params = s.params := rfl
@[simp] theorem State.acceptByte_baud (b : Byte) : (s.acceptByte b).baud = s.baud := rfl
@[simp] theorem State.acceptByte_initDone (b : Byte) : (s.acceptByte b).initDone = s.initDone := rfl
@[simp] theorem State.acceptByte_phase (b : Byte) : (s.acceptByte b).phase = s.phase := rfl
@[simp] theorem State.acceptByte_frame (b : Byte) : (s.acceptByte b).frame = s.frame := rfl
@[simp] theorem State.acceptByte_idx (b : Byte) : (s.acceptByte b).idx = s.idx + 1 := rfl
@[simp] theorem State.acceptByte_pend (b : Byte) : (s.acceptByte b).pend = s.pend := rfl
@[simp] theorem State.acceptByte_refused (b : Byte) : (s.acceptByte b).refused = s.refused := rfl
@[simp] theorem State.acceptByte_cfgBaud (b : Byte) : (s.acceptByte b).cfgBaud = s.cfgBaud := rfl
@[simp] theorem State.acceptByte_cfgBaudGiven (b : Byte) : (s.acceptByte b).cfgBaudGiven = s.cfgBaudGiven := rfl
@[simp] theorem State.acceptByte_offers (b : Byte) : (s.acceptByte b).offers = s.offers := rfl
@[simp] theorem State.acceptByte_snkReady (b : Byte) : (s.acceptByte b).snkReady = s.snkReady := rfl
@[simp] theorem State.acceptByte_script (b : Byte) : (s.acceptByte b).script = s.script := rfl
@[simp] theorem State.acceptByte_taken (b : Byte) : (s.acceptByte b).taken = s.taken := rfl
@[simp] theorem State.acceptByte_sinkTrace (b : Byte) : (s.acceptByte b).sinkTrace = s.sinkTrace ++ [.emit b] := rfl
@[simp] theorem State.acceptByte_rspTrace (b : Byte) : (s.acceptByte b).rspTrace = s.rspTrace := rfl
@[simp] theorem State.acceptByte_freeCount (b : Byte) : (s.acceptByte b).freeCount = s.freeCount := rfl

/-! ### deliver -/

@[simp] theorem State.deliver_params : (s.deliver).params = s.params := rfl
@[simp] theorem State.deliver_baud : (s.deliver).baud = s.baud := rfl
@[simp] theorem State.deliver_initDone : (s.deliver).initDone = s.initDone := rfl
@[simp] theorem State.deliver_phase : (s.deliver).phase = .idle := rfl
@[simp] theorem State.deliver_frame : (s.deliver).frame = (Config.freeFrame s.freeCount).take frameMax := rfl
@[simp] theorem State.deliver_idx : (s.deliver).idx = min (Config.freeIdx s.freeCount) ((Config.freeFrame s.freeCount).take frameMax).length := rfl
@[simp] theorem State.deliver_pend : (s.deliver).pend = Config.freePend s.freeCount := rfl
@[simp] theorem State.deliver_refused : (s.deliver).refused = s.refused := rfl
@[simp] theorem State.deliver_cfgBaud : (s.deliver).cfgBaud = s.cfgBaud := rfl
@[simp] theorem State.deliver_cfgBaudGiven : (s.deliver).cfgBaudGiven = s.cfgBaudGiven := rfl
@[simp] theorem State.deliver_offers : (s.deliver).offers = s.offers := rfl
@[simp] theorem State.deliver_snkReady : (s.deliver).snkReady = s.snkReady := rfl
@[simp] theorem State.deliver_script : (s.deliver).script = s.script := rfl
@[simp] theorem State.deliver_taken : (s.deliver).taken = s.taken := rfl
@[simp] theorem State.deliver_sinkTrace : (s.deliver).sinkTrace = s.sinkTrace := rfl
@[simp] theorem State.deliver_rspTrace : (s.deliver).rspTrace = s.rspTrace ++ [⟨s.taken.length, s.pend⟩] := rfl
@[simp] theorem State.deliver_freeCount : (s.deliver).freeCount = s.freeCount + 1 := rfl

/-! ### takeWord -/

@[simp] theorem State.takeWord_params (w : CmdWord) (rest : List CmdWord) : (s.takeWord w rest).params = s.params := rfl
@[simp] theorem State.takeWord_baud (w : CmdWord) (rest : List CmdWord) : (s.takeWord w rest).baud = s.baud := rfl
@[simp] theorem State.takeWord_initDone (w : CmdWord) (rest : List CmdWord) : (s.takeWord w rest).initDone = s.initDone := rfl
@[simp] theorem State.takeWord_phase (w : CmdWord) (rest : List CmdWord) : (s.takeWord w rest).phase = s.phase := rfl
@[simp] theorem State.takeWord_frame (w : CmdWord) (rest : List CmdWord) : (s.takeWord w rest).frame = s.frame := rfl
@[simp] theorem State.takeWord_idx (w : CmdWord) (rest : List CmdWord) : (s.takeWord w rest).idx = s.idx := rfl
@[simp] theorem State.takeWord_pend (w : CmdWord) (rest : List CmdWord) : (s.takeWord w rest).pend = s.pend := rfl
@[simp] theorem State.takeWord_refused (w : CmdWord) (rest : List CmdWord) : (s.takeWord w rest).refused = s.refused := rfl
@[simp] theorem State.takeWord_cfgBaud (w : CmdWord) (rest : List CmdWord) : (s.takeWord w rest).cfgBaud = s.cfgBaud := rfl
@[simp] theorem State.takeWord_cfgBaudGiven (w : CmdWord) (rest : List CmdWord) : (s.takeWord w rest).cfgBaudGiven = s.cfgBaudGiven := rfl
@[simp] theorem State.takeWord_offers (w : CmdWord) (rest : List CmdWord) : (s.takeWord w rest).offers = rest := rfl
@[simp] theorem State.takeWord_snkReady (w : CmdWord) (rest : List CmdWord) : (s.takeWord w rest).snkReady = s.snkReady := rfl
@[simp] theorem State.takeWord_script (w : CmdWord) (rest : List CmdWord) : (s.takeWord w rest).script = s.script := rfl
@[simp] theorem State.takeWord_taken (w : CmdWord) (rest : List CmdWord) : (s.takeWord w rest).taken = s.taken ++ [w] := rfl
@[simp] theorem State.takeWord_sinkTrace (w : CmdWord) (rest : List CmdWord) : (s.takeWord w rest).sinkTrace = s.sinkTrace := rfl
@[simp] theorem State.takeWord_rspTrace (w : CmdWord) (rest : List CmdWord) : (s.takeWord w rest).rspTrace = s.rspTrace := rfl
@[simp] theorem State.takeWord_freeCount (w : CmdWord) (rest : List CmdWord) : (s.takeWord w rest).freeCount = s.freeCount := rfl

/-! ### assertReset -/

@[simp] theorem State.assertReset_params : (s.assertReset).params = s.params := rfl
@[simp] theorem State.assertReset_baud : (s.assertReset).baud = s.baud := rfl
@[simp] theorem State.assertReset_initDone : (s.assertReset).initDone = false := rfl
@[simp] theorem State.assertReset_phase : (s.assertReset).phase = .reset := rfl
@[simp] theorem State.assertReset_frame : (s.assertReset).frame = (Config.freeFrame s.freeCount).take frameMax := rfl
@[simp] theorem State.assertReset_idx : (s.assertReset).idx = min (Config.freeIdx s.freeCount) ((Config.freeFrame s.freeCount).take frameMax).length := rfl
@[simp] theorem State.assertReset_pend : (s.assertReset).pend = Config.freePend s.freeCount := rfl
@[simp] theorem State.assertReset_refused : (s.assertReset).refused = s.refused := rfl
@[simp] theorem State.assertReset_cfgBaud : (s.assertReset).cfgBaud = s.cfgBaud := rfl
@[simp] theorem State.assertReset_cfgBaudGiven : (s.assertReset).cfgBaudGiven = s.cfgBaudGiven := rfl
@[simp] theorem State.assertReset_offers : (s.assertReset).offers = s.offers := rfl
@[simp] theorem State.assertReset_snkReady : (s.assertReset).snkReady = s.snkReady := rfl
@[simp] theorem State.assertReset_script : (s.assertReset).script = s.script := rfl
@[simp] theorem State.assertReset_taken : (s.assertReset).taken = s.taken := rfl
@[simp] theorem State.assertReset_sinkTrace : (s.assertReset).sinkTrace = s.sinkTrace := rfl
@[simp] theorem State.assertReset_rspTrace : (s.assertReset).rspTrace = s.rspTrace := rfl
@[simp] theorem State.assertReset_freeCount : (s.assertReset).freeCount = s.freeCount + 1 := rfl

/-! ### presentBaud -/

@[simp] theorem State.presentBaud_params (g : Bool) (r : Rate) : (s.presentBaud g r).params = s.params := rfl
@[simp] theorem State.presentBaud_baud (g : Bool) (r : Rate) : (s.presentBaud g r).baud = s.baud := rfl
@[simp] theorem State.presentBaud_initDone (g : Bool) (r : Rate) : (s.presentBaud g r).initDone = s.initDone := rfl
@[simp] theorem State.presentBaud_phase (g : Bool) (r : Rate) : (s.presentBaud g r).phase = s.phase := rfl
@[simp] theorem State.presentBaud_frame (g : Bool) (r : Rate) : (s.presentBaud g r).frame = s.frame := rfl
@[simp] theorem State.presentBaud_idx (g : Bool) (r : Rate) : (s.presentBaud g r).idx = s.idx := rfl
@[simp] theorem State.presentBaud_pend (g : Bool) (r : Rate) : (s.presentBaud g r).pend = s.pend := rfl
@[simp] theorem State.presentBaud_refused (g : Bool) (r : Rate) : (s.presentBaud g r).refused = s.refused := rfl
@[simp] theorem State.presentBaud_cfgBaud (g : Bool) (r : Rate) : (s.presentBaud g r).cfgBaud = r := rfl
@[simp] theorem State.presentBaud_cfgBaudGiven (g : Bool) (r : Rate) : (s.presentBaud g r).cfgBaudGiven = g := rfl
@[simp] theorem State.presentBaud_offers (g : Bool) (r : Rate) : (s.presentBaud g r).offers = s.offers := rfl
@[simp] theorem State.presentBaud_snkReady (g : Bool) (r : Rate) : (s.presentBaud g r).snkReady = s.snkReady := rfl
@[simp] theorem State.presentBaud_script (g : Bool) (r : Rate) : (s.presentBaud g r).script = s.script := rfl
@[simp] theorem State.presentBaud_taken (g : Bool) (r : Rate) : (s.presentBaud g r).taken = s.taken := rfl
@[simp] theorem State.presentBaud_sinkTrace (g : Bool) (r : Rate) : (s.presentBaud g r).sinkTrace = s.sinkTrace := rfl
@[simp] theorem State.presentBaud_rspTrace (g : Bool) (r : Rate) : (s.presentBaud g r).rspTrace = s.rspTrace := rfl
@[simp] theorem State.presentBaud_freeCount (g : Bool) (r : Rate) : (s.presentBaud g r).freeCount = s.freeCount := rfl

/-! ### hostOffer -/

@[simp] theorem State.hostOffer_params (w : CmdWord) : (s.hostOffer w).params = s.params := rfl
@[simp] theorem State.hostOffer_baud (w : CmdWord) : (s.hostOffer w).baud = s.baud := rfl
@[simp] theorem State.hostOffer_initDone (w : CmdWord) : (s.hostOffer w).initDone = s.initDone := rfl
@[simp] theorem State.hostOffer_phase (w : CmdWord) : (s.hostOffer w).phase = s.phase := rfl
@[simp] theorem State.hostOffer_frame (w : CmdWord) : (s.hostOffer w).frame = s.frame := rfl
@[simp] theorem State.hostOffer_idx (w : CmdWord) : (s.hostOffer w).idx = s.idx := rfl
@[simp] theorem State.hostOffer_pend (w : CmdWord) : (s.hostOffer w).pend = s.pend := rfl
@[simp] theorem State.hostOffer_refused (w : CmdWord) : (s.hostOffer w).refused = s.refused := rfl
@[simp] theorem State.hostOffer_cfgBaud (w : CmdWord) : (s.hostOffer w).cfgBaud = s.cfgBaud := rfl
@[simp] theorem State.hostOffer_cfgBaudGiven (w : CmdWord) : (s.hostOffer w).cfgBaudGiven = s.cfgBaudGiven := rfl
@[simp] theorem State.hostOffer_offers (w : CmdWord) : (s.hostOffer w).offers = s.offers ++ [w] := rfl
@[simp] theorem State.hostOffer_snkReady (w : CmdWord) : (s.hostOffer w).snkReady = s.snkReady := rfl
@[simp] theorem State.hostOffer_script (w : CmdWord) : (s.hostOffer w).script = s.script := rfl
@[simp] theorem State.hostOffer_taken (w : CmdWord) : (s.hostOffer w).taken = s.taken := rfl
@[simp] theorem State.hostOffer_sinkTrace (w : CmdWord) : (s.hostOffer w).sinkTrace = s.sinkTrace := rfl
@[simp] theorem State.hostOffer_rspTrace (w : CmdWord) : (s.hostOffer w).rspTrace = s.rspTrace := rfl
@[simp] theorem State.hostOffer_freeCount (w : CmdWord) : (s.hostOffer w).freeCount = s.freeCount := rfl

/-! ### setSnkReady -/

@[simp] theorem State.setSnkReady_params (b : Bool) : (s.setSnkReady b).params = s.params := rfl
@[simp] theorem State.setSnkReady_baud (b : Bool) : (s.setSnkReady b).baud = s.baud := rfl
@[simp] theorem State.setSnkReady_initDone (b : Bool) : (s.setSnkReady b).initDone = s.initDone := rfl
@[simp] theorem State.setSnkReady_phase (b : Bool) : (s.setSnkReady b).phase = s.phase := rfl
@[simp] theorem State.setSnkReady_frame (b : Bool) : (s.setSnkReady b).frame = s.frame := rfl
@[simp] theorem State.setSnkReady_idx (b : Bool) : (s.setSnkReady b).idx = s.idx := rfl
@[simp] theorem State.setSnkReady_pend (b : Bool) : (s.setSnkReady b).pend = s.pend := rfl
@[simp] theorem State.setSnkReady_refused (b : Bool) : (s.setSnkReady b).refused = s.refused := rfl
@[simp] theorem State.setSnkReady_cfgBaud (b : Bool) : (s.setSnkReady b).cfgBaud = s.cfgBaud := rfl
@[simp] theorem State.setSnkReady_cfgBaudGiven (b : Bool) : (s.setSnkReady b).cfgBaudGiven = s.cfgBaudGiven := rfl
@[simp] theorem State.setSnkReady_offers (b : Bool) : (s.setSnkReady b).offers = s.offers := rfl
@[simp] theorem State.setSnkReady_snkReady (b : Bool) : (s.setSnkReady b).snkReady = b := rfl
@[simp] theorem State.setSnkReady_script (b : Bool) : (s.setSnkReady b).script = s.script := rfl
@[simp] theorem State.setSnkReady_taken (b : Bool) : (s.setSnkReady b).taken = s.taken := rfl
@[simp] theorem State.setSnkReady_sinkTrace (b : Bool) : (s.setSnkReady b).sinkTrace = s.sinkTrace := rfl
@[simp] theorem State.setSnkReady_rspTrace (b : Bool) : (s.setSnkReady b).rspTrace = s.rspTrace := rfl
@[simp] theorem State.setSnkReady_freeCount (b : Bool) : (s.setSnkReady b).freeCount = s.freeCount := rfl

/-! ### popMove -/

@[simp] theorem State.popMove_params : (s.popMove).params = s.params := rfl
@[simp] theorem State.popMove_baud : (s.popMove).baud = s.baud := rfl
@[simp] theorem State.popMove_initDone : (s.popMove).initDone = s.initDone := rfl
@[simp] theorem State.popMove_phase : (s.popMove).phase = s.phase := rfl
@[simp] theorem State.popMove_frame : (s.popMove).frame = s.frame := rfl
@[simp] theorem State.popMove_idx : (s.popMove).idx = s.idx := rfl
@[simp] theorem State.popMove_pend : (s.popMove).pend = s.pend := rfl
@[simp] theorem State.popMove_refused : (s.popMove).refused = s.refused := rfl
@[simp] theorem State.popMove_cfgBaud : (s.popMove).cfgBaud = s.cfgBaud := rfl
@[simp] theorem State.popMove_cfgBaudGiven : (s.popMove).cfgBaudGiven = s.cfgBaudGiven := rfl
@[simp] theorem State.popMove_offers : (s.popMove).offers = s.offers := rfl
@[simp] theorem State.popMove_snkReady : (s.popMove).snkReady = s.snkReady := rfl
@[simp] theorem State.popMove_script : (s.popMove).script = s.script.tail := rfl
@[simp] theorem State.popMove_taken : (s.popMove).taken = s.taken := rfl
@[simp] theorem State.popMove_sinkTrace : (s.popMove).sinkTrace = s.sinkTrace := rfl
@[simp] theorem State.popMove_rspTrace : (s.popMove).rspTrace = s.rspTrace := rfl
@[simp] theorem State.popMove_freeCount : (s.popMove).freeCount = s.freeCount := rfl

/-! ### perform: one equation per outcome -/

@[simp] theorem State.perform_reject (c : Int) : s.perform (.reject c) = s.raise c := rfl
@[simp] theorem State.perform_refuse (r : RefuseReason) : s.perform (.refuse r) = s.markRefused r := rfl
@[simp] theorem State.perform_frame (f : List Byte) (r : Response) : s.perform (.frame f r) = s.startFrame f r := rfl
@[simp] theorem State.perform_answer (t : Bool) : s.perform (.answer t) = s.respond (.bool t) := rfl

/-! ### releaseReset: its two cases -/

theorem State.releaseReset_of_reset (h : s.phase = .reset) :
    s.releaseReset =
      { s with baud := (if s.cfgBaudGiven then s.cfgBaud else baudDefault), initDone := false, phase := .init } := by
  simp [State.releaseReset, h]

theorem State.releaseReset_of_not_reset (h : s.phase ≠ .reset) : s.releaseReset = s := by
  unfold State.releaseReset
  split
  · exact absurd ‹_› h
  · rfl

@[simp] theorem State.releaseReset_params : s.releaseReset.params = s.params := by
  unfold State.releaseReset; split <;> rfl
@[simp] theorem State.releaseReset_frame : s.releaseReset.frame = s.frame := by
  unfold State.releaseReset; split <;> rfl
@[simp] theorem State.releaseReset_idx : s.releaseReset.idx = s.idx := by
  unfold State.releaseReset; split <;> rfl
@[simp] theorem State.releaseReset_pend : s.releaseReset.pend = s.pend := by
  unfold State.releaseReset; split <;> rfl
@[simp] theorem State.releaseReset_refused : s.releaseReset.refused = s.refused := by
  unfold State.releaseReset; split <;> rfl
@[simp] theorem State.releaseReset_cfgBaud : s.releaseReset.cfgBaud = s.cfgBaud := by
  unfold State.releaseReset; split <;> rfl
@[simp] theorem State.releaseReset_cfgBaudGiven : s.releaseReset.cfgBaudGiven = s.cfgBaudGiven := by
  unfold State.releaseReset; split <;> rfl
@[simp] theorem State.releaseReset_offers : s.releaseReset.offers = s.offers := by
  unfold State.releaseReset; split <;> rfl
@[simp] theorem State.releaseReset_snkReady : s.releaseReset.snkReady = s.snkReady := by
  unfold State.releaseReset; split <;> rfl
@[simp] theorem State.releaseReset_script : s.releaseReset.script = s.script := by
  unfold State.releaseReset; split <;> rfl
@[simp] theorem State.releaseReset_taken : s.releaseReset.taken = s.taken := by
  unfold State.releaseReset; split <;> rfl
@[simp] theorem State.releaseReset_sinkTrace : s.releaseReset.sinkTrace = s.sinkTrace := by
  unfold State.releaseReset; split <;> rfl
@[simp] theorem State.releaseReset_rspTrace : s.releaseReset.rspTrace = s.rspTrace := by
  unfold State.releaseReset; split <;> rfl
@[simp] theorem State.releaseReset_freeCount : s.releaseReset.freeCount = s.freeCount := by
  unfold State.releaseReset; split <;> rfl

/-! ### perform: the fields no outcome writes -/

@[simp] theorem State.perform_params (o : CmdOutcome) : (s.perform o).params = s.params := by cases o <;> rfl
@[simp] theorem State.perform_baud (o : CmdOutcome) : (s.perform o).baud = s.baud := by cases o <;> rfl
@[simp] theorem State.perform_initDone (o : CmdOutcome) : (s.perform o).initDone = s.initDone := by cases o <;> rfl
@[simp] theorem State.perform_cfgBaud (o : CmdOutcome) : (s.perform o).cfgBaud = s.cfgBaud := by cases o <;> rfl
@[simp] theorem State.perform_cfgBaudGiven (o : CmdOutcome) : (s.perform o).cfgBaudGiven = s.cfgBaudGiven := by cases o <;> rfl
@[simp] theorem State.perform_offers (o : CmdOutcome) : (s.perform o).offers = s.offers := by cases o <;> rfl
@[simp] theorem State.perform_snkReady (o : CmdOutcome) : (s.perform o).snkReady = s.snkReady := by cases o <;> rfl
@[simp] theorem State.perform_script (o : CmdOutcome) : (s.perform o).script = s.script := by cases o <;> rfl
@[simp] theorem State.perform_taken (o : CmdOutcome) : (s.perform o).taken = s.taken := by cases o <;> rfl
@[simp] theorem State.perform_sinkTrace (o : CmdOutcome) : (s.perform o).sinkTrace = s.sinkTrace := by cases o <;> rfl
@[simp] theorem State.perform_freeCount (o : CmdOutcome) : (s.perform o).freeCount = s.freeCount := by cases o <;> rfl

/-- Popping an empty script changes nothing. -/
theorem State.popMove_of_nil (h : s.script = []) : s.popMove = s := by
  cases s; simp_all [State.popMove]

/-! ### nextMove, by the script -/

theorem State.nextMove_cons (m : Move) (ms : List Move) (h : s.script = m :: ms) : s.nextMove = m := by
  simp [State.nextMove, h]

theorem State.nextMove_nil_reset (h : s.script = []) (hp : s.phase = .reset) : s.nextMove = .releaseReset := by
  simp [State.nextMove, h, hp]

theorem State.nextMove_nil (h : s.script = []) (hp : s.phase ≠ .reset) : s.nextMove = .framer := by
  simp [State.nextMove, h, hp]

end Sys2Proof.Machine
end

