-- ==== Sys2Proof/Laws/Step.lean ====
section
/-!
SUPPORT. What exec and step can do, said once: exec performs the instruction's pure outcome (00_scope.md R11), and a step that
has a next state is one of the transitions of 10_state.md R26, a hold, or a move of the environment.
-/
namespace Sys2Proof.Machine

/-- Every meaning performs the pure outcome of its instruction. -/
theorem exec_eq_perform (i : Instr) (s : State) : exec i s = .next (s.perform (instrOutcome s.params i)) := by
  cases i <;> rfl

/-- The outcome of a word the decoder reads is its instruction's. -/
theorem outcome_of_decode {p : Params} {w : CmdWord} {i : Instr} (h : decode w = .ok i) :
    outcome p w = instrOutcome p i := by
  simp [outcome, h]

/-- The outcome of a word the decoder refuses is that refusal. -/
theorem outcome_of_decode_error {p : Params} {w : CmdWord} {r : RefuseReason} (h : decode w = .error r) :
    outcome p w = .refuse r := by
  simp [outcome, h]

@[simp] theorem carryOut_stop (r : RefuseReason) : carryOut (.stop r) = .refused (.refuse r) := rfl

@[simp] theorem carryOut_move (t : State) : carryOut (.move t) = .next t := rfl

@[simp] theorem carryOut_run (i : Instr) (t : State) :
    carryOut (.run i t) = .next (t.perform (instrOutcome t.params i)) := exec_eq_perform i t

/-! The framer's plan, case by case (R26). -/

section
variable {s : State}

theorem framerPlan_reset (hp : s.phase = .reset) : framerPlan s = .move s := by simp only [framerPlan, hp]

theorem framerPlan_init_ready (hp : s.phase = .init) (hk : s.snkReady = true) : framerPlan s = .move s.acceptInit := by
  simp only [framerPlan, hp, initMove]; rw [if_pos hk]

theorem framerPlan_init_stalled (hp : s.phase = .init) (hk : s.snkReady = false) : framerPlan s = .move s := by
  simp only [framerPlan, hp, initMove]; rw [if_neg (by simp [hk])]

theorem framerPlan_busy_byte {b : Byte} (hp : s.phase = .busy) (hb : s.frame[s.idx]? = some b) (hk : s.snkReady = true) :
    framerPlan s = .move (s.acceptByte b) := by
  simp only [framerPlan, hp, busyMove, hb]; rw [if_pos hk]

theorem framerPlan_busy_stalled (hp : s.phase = .busy) (hi : s.idx < s.frame.length) (hk : s.snkReady = false) :
    framerPlan s = .move s := by
  simp only [framerPlan, hp, busyMove, List.getElem?_eq_getElem hi]; rw [if_neg (by simp [hk])]

theorem framerPlan_busy_last (hp : s.phase = .busy) (hi : s.idx = s.frame.length) : framerPlan s = .move s.deliver := by
  simp only [framerPlan, hp, busyMove, List.getElem?_eq_none (Nat.le_of_eq hi.symm)]; rw [if_pos hi]

end

/-- The framer's transitions of R26, from `s` to `t`, and its holds. -/
inductive FramerStep (s : State) : State → Prop where
  /-- No transition applies: the state stays. -/
  | hold : FramerStep s s
  /-- The sink accepts `SinkInit(BAUD)`. -/
  | initAccepted (hp : s.phase = .init) (hr : s.snkReady = true) : FramerStep s s.acceptInit
  /-- The sink accepts the next byte of the frame. -/
  | byteAccepted (hp : s.phase = .busy) (hr : s.snkReady = true) (b : Byte) (hb : s.frame[s.idx]? = some b) :
    FramerStep s (s.acceptByte b)
  /-- The response is delivered after the last byte. -/
  | delivered (hp : s.phase = .busy) (hi : s.idx = s.frame.length) : FramerStep s s.deliver
  /-- A word is accepted and its outcome performed. -/
  | accepted (hp : s.phase = .idle) (hd : s.initDone = true) (w : CmdWord) (rest : List CmdWord)
    (ho : s.offers = w :: rest) : FramerStep s ((s.takeWord w rest).perform (outcome s.params w))

/-- A framer's plan, carried out, is one of its transitions. -/
theorem framerPlan_cases {s t : State} (h : carryOut (framerPlan s) = .next t) : FramerStep s t := by
  unfold framerPlan at h
  cases hp : s.phase with
  | reset => simp only [hp] at h; cases h; exact .hold
  | init =>
    simp only [hp, initMove] at h
    cases h
    split
    · exact .initAccepted hp ‹_›
    · exact .hold
  | busy =>
    simp only [hp, busyMove] at h
    cases h
    split
    · split
      · exact .byteAccepted hp ‹_› _ ‹_›
      · exact .hold
    · split
      · exact .delivered hp ‹_›
      · exact .hold
  | idle =>
    simp only [hp, idlePlan] at h
    by_cases hd : s.initDone = true
    · rw [if_pos hd] at h
      cases ho : s.offers with
      | nil => simp only [ho] at h; cases h; exact .hold
      | cons w rest =>
        simp only [ho] at h
        have hx := FramerStep.accepted hp hd w rest ho
        cases hw : decode w with
        | ok i =>
          simp only [hw, carryOut_run] at h
          cases h
          rwa [outcome_of_decode hw] at hx
        | error r =>
          simp only [hw] at h
          cases h
          rwa [outcome_of_decode_error hw] at hx
    · rw [if_neg hd] at h; cases h; exact .hold

/-- A step that has a next state: the parameters are valid, the mark is not set, and it is a move of the environment or a
step of the framer. -/
theorem step_cases {s t : State} (h : step s = .next t) :
    s.params.valid = true ∧ s.refused = none ∧
      ((s.nextMove ≠ .framer ∧ t = s.popMove.envMove s.nextMove) ∨
        (s.nextMove = .framer ∧ FramerStep s.popMove t)) := by
  unfold step plan at h
  by_cases hv : s.params.valid = true
  · refine ⟨hv, ?_⟩
    rw [if_pos hv] at h
    cases hr : s.refused with
    | some r => simp only [hr] at h; cases h
    | none =>
      refine ⟨rfl, ?_⟩
      simp only [hr] at h
      cases hm : s.nextMove with
      | framer => simp only [hm] at h; exact .inr ⟨rfl, framerPlan_cases h⟩
      | _ => simp only [hm] at h; cases h; exact .inl ⟨by simp, rfl⟩
  · rw [if_neg hv] at h; cases h

/-- No step faults (R115). -/
theorem step_ne_fault (s : State) (f : Fault) : step s ≠ .fault f := by cases f

/-- With valid parameters and no mark, a step whose move is the framer's carries out the framer's plan. -/
theorem step_framer {s : State} (hv : s.params.valid = true) (hr : s.refused = none) (hm : s.nextMove = .framer) :
    step s = carryOut (framerPlan s.popMove) := by
  simp only [step, plan, hv, hr, hm, if_true]

/-- With valid parameters and no mark, a step whose move is the environment's is that move. -/
theorem step_env {s : State} (hv : s.params.valid = true) (hr : s.refused = none) (hm : s.nextMove ≠ .framer) :
    step s = .next (s.popMove.envMove s.nextMove) := by
  cases h : s.nextMove <;> simp_all [step, plan]

/-- A step that accepts a word: it is performed, whatever its outcome. -/
theorem step_accept {s : State} {w : CmdWord} {rest : List CmdWord} (hv : s.params.valid = true) (hr : s.refused = none)
    (hm : s.nextMove = .framer) (hc : s.cmdReady = true) (ho : s.offers = w :: rest) :
    step s = .next ((s.popMove.takeWord w rest).perform (outcome s.params w)) := by
  simp only [State.cmdReady, Bool.and_eq_true, decide_eq_true_eq] at hc
  rw [step_framer hv hr hm]
  simp only [framerPlan, State.popMove_phase, hc.1, idlePlan, State.popMove_initDone, hc.2, if_true,
    State.popMove_offers, ho]
  cases hw : decode w with
  | ok i => simp [outcome_of_decode hw]
  | error r => simp [outcome_of_decode_error hw]

/-- A run that has come to its end stays there: every further step leaves the state as it is. -/
theorem step_of_ended {s : State} (hv : s.params.valid = true) (h : s.Ended) : step s = .next s := by
  obtain ⟨hr, hs, hp, hd, ho⟩ := h
  rw [step_framer hv hr (s.nextMove_nil hs (by rw [hp]; decide)), s.popMove_of_nil hs]
  simp only [framerPlan, hp, idlePlan, hd, ho, if_true, carryOut_move]

/-- Running one step more: the first step, then the others. -/
theorem run_succ {n : Nat} {s t : State} (h : step s = .next t) : run (n + 1) s = run n t := by
  simp only [run, h]

/-- A run of `m + n` steps is a run of `n` steps after one of `m`. -/
theorem run_add {m n : Nat} {s t : State} (h : run m s = .next t) : run (m + n) s = run n t := by
  induction m generalizing s with
  | zero => cases h; rw [Nat.zero_add]
  | succ m ih =>
    cases hs : step s with
    | next u =>
      rw [run_succ hs] at h
      rw [Nat.add_right_comm, run_succ hs]
      exact ih h
    | fault f => cases f
    | refused r => simp only [run, hs] at h; cases h

/-- An invariant that every step keeps holds after every run. -/
theorem run_induction {I : State → Prop} (hI : ∀ s t, I s → step s = .next t → I t) {n : Nat} {s t : State} (hs : I s)
    (h : run n s = .next t) : I t := by
  induction n generalizing s with
  | zero => cases h; exact hs
  | succ n ih =>
    cases hx : step s with
    | next u => rw [run_succ hx] at h; exact ih (hI s u hs hx) h
    | fault f => cases f
    | refused r => simp only [run, hx] at h; cases h

end Sys2Proof.Machine
end

