-- ==== Sys2Proof/Laws/Run.lean ====
section
/-!
SUPPORT. Whole commands: what a ready block does with the word offered to it, by the word's outcome (10_state.md R26).
-/
namespace Sys2Proof.Machine

/-- The rest of a frame goes out, one byte a step, and then its response (R26, R50), the sink always ready. -/
theorem emit_run (k : Nat) : ∀ s : State, s.params.valid = true → s.refused = none → s.script = [] →
    s.snkReady = true → s.phase = .busy → s.idx + k = s.frame.length →
    run (k + 1) s = .next
      ({ s with
        sinkTrace := s.sinkTrace ++ (s.frame.drop s.idx).map SinkEvent.emit
        idx := s.frame.length } : State).deliver := by
  induction k with
  | zero =>
    intro s hv hr hs _ hp hi
    have hx : step s = .next s.deliver := by
      rw [step_framer hv hr (s.nextMove_nil hs (by rw [hp]; decide)), s.popMove_of_nil hs,
        framerPlan_busy_last hp (by omega), carryOut_move]
    have hs' : ({ s with
        sinkTrace := s.sinkTrace ++ (s.frame.drop s.idx).map SinkEvent.emit
        idx := s.frame.length } : State) = s := by
      rw [show s.frame.drop s.idx = [] by simp; omega]
      cases s
      simp_all
    rw [run_succ hx, hs']
    rfl
  | succ k ih =>
    intro s hv hr hs hk hp hi
    have hlt : s.idx < s.frame.length := by omega
    have hx : step s = .next (s.acceptByte s.frame[s.idx]) := by
      rw [step_framer hv hr (s.nextMove_nil hs (by rw [hp]; decide)), s.popMove_of_nil hs,
        framerPlan_busy_byte hp (List.getElem?_eq_getElem hlt) hk, carryOut_move]
    rw [run_succ hx, ih (s.acceptByte s.frame[s.idx]) hv hr hs hk hp (by simp; omega)]
    congr 2
    have hd : s.frame.drop s.idx = s.frame[s.idx] :: s.frame.drop (s.idx + 1) := by simp
    rw [hd, List.map_cons]
    simp [State.acceptByte]

section
variable {s : State} {w : CmdWord} {rest : List CmdWord}

/-- A ready block accepts the word offered and performs its outcome. -/
theorem step_ready (h : s.Ready w rest) : step s = .next ((s.takeWord w rest).perform (outcome s.params w)) := by
  have hm := s.nextMove_nil h.quiet (by rw [h.idle]; decide)
  have hc : s.cmdReady = true := by simp [State.cmdReady, h.idle, h.initDone]
  have hx := step_accept h.valid h.unmarked hm hc h.offered
  rwa [s.popMove_of_nil h.quiet] at hx

/-- A rejected word (R116). -/
theorem step_of_reject {c : Int} (h : s.Ready w rest) (ho : outcome s.params w = .reject c) :
    step s = .next (s.afterAnswer w rest (.status c)) := by
  rw [step_ready h, ho]
  simp [State.raise, State.respond, State.takeWord, State.afterAnswer]

/-- An answered word (R110). -/
theorem step_of_answer {b : Bool} (h : s.Ready w rest) (ho : outcome s.params w = .answer b) :
    step s = .next (s.afterAnswer w rest (.bool b)) := by
  rw [step_ready h, ho]
  simp [State.respond, State.takeWord, State.afterAnswer]

/-- A refused word (R59, R60). -/
theorem step_of_refuse {r : RefuseReason} (h : s.Ready w rest) (ho : outcome s.params w = .refuse r) :
    step s = .next (s.afterMark w rest r) := by
  rw [step_ready h, ho]
  simp [State.markRefused, State.takeWord, State.afterMark]

/-- A word whose frame is emitted (R47, R50). -/
theorem emits_of_frame {f : List Byte} {r : Response} (h : s.Ready w rest) (ho : outcome s.params w = .frame f r) :
    s.Emits w rest f r := by
  have hx := step_ready h
  rw [ho] at hx
  refine ⟨_, (run_succ hx).trans
    (emit_run f.length ((s.takeWord w rest).startFrame f r) h.valid h.unmarked h.quiet h.accepting rfl (by simp)), ?_⟩
  have hi := h.idle
  cases s
  subst hi
  exact ⟨_, _, _, _, by
    simp [State.deliver, State.freeFrameFields, State.respond, State.startFrame, State.takeWord]
    exact ⟨rfl, rfl, rfl, rfl⟩⟩

end

end Sys2Proof.Machine
end

