-- ==== Sys2Proof/Tests/Slice0.lean ====
section
/-!
SUPPORT. Tests with expected results from the spec's vectors (95_test_vectors.md, V1 to V65, R1 to R6), and for every statement
with hypotheses a witness that meets them, at the boundary values of its clauses.
-/
namespace Sys2Proof.Tests
open Sys2Proof Sys2Proof.Machine

/-! ### Helpers -/

/-- An idle, initialised block under parameters `p`, offered the words `ws`, with a sink that accepts (95_test_vectors.md L3). -/
def readyWith (p : Params) (ws : List CmdWord) : State :=
  { State.reset with params := p, phase := .idle, initDone := true, offers := ws }

/-- The same under RB0 with one word. -/
def ready (w : CmdWord) : State := readyWith Params.rb0 [w]

theorem readyWith_ready (p : Params) (hp : p.valid = true) (w : CmdWord) (rest : List CmdWord) :
    (readyWith p (w :: rest)).Ready w rest := ⟨hp, rfl, rfl, rfl, rfl, rfl, rfl⟩

theorem ready_ready (w : CmdWord) : (ready w).Ready w [] := readyWith_ready _ (by decide) w []

/-- RB0 with `SPLIT_ORDER = LOW_FIRST`. -/
def lowFirst : Params := { Params.rb0 with splitOrder := .lowFirst }

/-- RB0 with `FWD_DIR_BIT = 1`. -/
def dirOne : Params := { Params.rb0 with fwdDirBit := true }

/-- RB0 with `BASE_MAX = 15` and `ERR_BASE_NUMBER = -3`. -/
def deviceText : Params := { Params.rb0 with baseMax := .fifteen, errBaseNumber := .minusThree }

/-- Whether one step from `s` gives a next state of which `f` holds. -/
def after (s : State) (f : State → Bool) : Bool :=
  match step s with
  | .next t => f t
  | _ => false

/-- Whether one step from `s` starts the frame `bytes` with response `r` pending, and delivers nothing yet (R26). -/
def starts (s : State) (bytes : List Byte) (r : Response) : Bool :=
  after s fun t => decide (t.phase = .busy ∧ t.frame = bytes ∧ t.idx = 0 ∧ t.pend = r ∧ t.rspTrace = [] ∧ t.sinkTrace = [])

/-- Whether one step from `s` answers `r` to the first command with no sink event, and stays in `IDLE` (R110, R116). -/
def answersWith (s : State) (r : Response) : Bool :=
  after s fun t => decide (t.phase = .idle ∧ t.rspTrace = [⟨1, r⟩] ∧ t.sinkTrace = [] ∧ t.refused = none)

/-- Whether one step from `s` sets the refusal mark and does nothing else the host or the sink sees (R59). -/
def marks (s : State) (x : RefuseReason) : Bool :=
  after s fun t => decide (t.phase = .idle ∧ t.rspTrace = [] ∧ t.sinkTrace = [] ∧ t.refused = some x)

/-- A block in `BUSY` with the whole of V1's frame to emit, up to byte `k`, after `SinkInit(40000)` (R26). -/
def emitting (k : Nat) : State :=
  { State.reset with
    phase := .busy, initDone := true, frame := [0x80#8, 0x01#8, 0x01#8, 0x05#8, 0x00#8], idx := k, pend := .status 0
    taken := [0x1000050000#40]
    sinkTrace := .sinkInit 40000#32 :: ([0x80#8, 0x01#8, 0x01#8, 0x05#8, 0x00#8].take k).map SinkEvent.emit }

/-- What a check of each word of a list shows. -/
theorem each {P : CmdWord → Prop} [DecidablePred P] {l : List CmdWord} (h : (l.all fun w => decide (P w)) = true) :
    ∀ w ∈ l, P w := fun w hw => of_decide_eq_true (List.all_eq_true.mp h w hw)

/-! ### WellFormed: an ill-formed term for each check (R56, R73) -/

theorem test_wf_refuses :
    (Instr.configureServo 65536 true true 0).wf = false ∧ (Instr.configureServo 0 true true 65536).wf = false ∧
    (Instr.setSpeed 65536 0).wf = false ∧ (Instr.setSpeed 0 65536).wf = false ∧
    (Instr.setPosition 65536 0).wf = false ∧ (Instr.setPosition 0 65536).wf = false ∧
    (Instr.setPositionAbsolute 65536 0).wf = false ∧ (Instr.setPositionAbsolute 0 65536).wf = false ∧
    (Instr.setNeutral 65536 0).wf = false ∧ (Instr.setNeutral 0 65536).wf = false ∧
    (Instr.setServoNumberBaseNumber 65536).wf = false ∧ (Instr.isValidServoId 65536).wf = false := by decide

/-! ### Decoding: words written out bit by bit from R56 -/

/-- `OP EN FWD RSV A V` of V40, in binary. -/
theorem test_decode_configureServo :
    decode 0b0000_1_0_00_0000000000001010_0000000000001111#40 = .ok (.configureServo 10 true false 15) := by decide

/-- V3. -/
theorem test_decode_setSpeed :
    decode 0b0001_0_0_00_0000000001111111_0000000001111111#40 = .ok (.setSpeed 127 127) := by decide

/-- V13. -/
theorem test_decode_setPosition :
    decode 0b0011_0_0_00_0000000000000011_0000000011001000#40 = .ok (.setPosition 3 200) := by decide

/-- V18. -/
theorem test_decode_setPositionAbsolute :
    decode 0b0100_0_0_00_0000000000000001_0001010101111100#40 = .ok (.setPositionAbsolute 1 5500) := by decide

/-- V28. -/
theorem test_decode_setNeutral :
    decode 0b0101_0_0_00_0000000000000111_0000101110111000#40 = .ok (.setNeutral 7 3000) := by decide

/-- V45. -/
theorem test_decode_setServoNumberBaseNumber :
    decode 0b1000_0_0_00_0000000000001111_0000000000000000#40 = .ok (.setServoNumberBaseNumber 15) := by decide

/-- V50. -/
theorem test_decode_blinkServoNumberBaseNumber :
    decode 0b1001_0_0_00_0000000000000000_0000000000000000#40 = .ok .blinkServoNumberBaseNumber := by decide

/-- V55. -/
theorem test_decode_isValidServoId :
    decode 0b1010_0_0_00_1111111111111111_0000000000000000#40 = .ok (.isValidServoId 65535) := by decide

/-- V56 to V58 and the rest of R59's list. -/
theorem test_decode_reservedOp :
    ∀ w ∈ [0x2000000000#40, 0x2000C80000#40, 0x6000000000#40, 0x7000000000#40, 0xB000000000#40, 0xC000000000#40,
      0xD000000000#40, 0xE000000000#40, 0xF000000000#40], decode w = .error .reservedOp := each (by decide)

/-- V59 to V65. -/
theorem test_decode_nonzeroUnusedField :
    ∀ w ∈ [0x1100050000#40, 0x1800050000#40, 0x4400000000#40, 0x8000030001#40, 0x9000000001#40, 0xA000000001#40,
      0x0100000000#40], decode w = .error .nonzeroUnusedField := each (by decide)

/-- No word is selected by two rows of R58: of two rows, the patterns differ under both masks. -/
theorem test_rows_exclude_each_other :
    commandMap.Pairwise fun r q => r.pattern &&& q.mask &&& r.mask ≠ q.pattern &&& q.mask &&& r.mask := by decide

/-- The host's probe numbers bits as the table does: V1. -/
theorem test_decodeTableWord : decodeTableWord 40 0x1000050000 = some (.setSpeed 5 0) := by decide

/-- A placed word runs at the very next step, from reset: V1. -/
theorem test_withFetchWord :
    starts (State.reset.withFetchWord 40 0x1000050000) [0x80#8, 0x01#8, 0x01#8, 0x05#8, 0x00#8] (.status 0) = true := by
  decide

/-! ### One step of each instruction -/

/-- V35, in both polarities of the direction bit, and V38. -/
theorem test_configureServo_frame :
    starts (ready 0x0C000A000F#40) [0x80#8, 0x01#8, 0x00#8, 0x0A#8, 0x4F#8] (.status 0) = true ∧
    starts (readyWith dirOne [0x0C000A000F#40]) [0x80#8, 0x01#8, 0x00#8, 0x0A#8, 0x6F#8] (.status 0) = true ∧
    starts (ready 0x000001001F#40) [0x80#8, 0x01#8, 0x00#8, 0x01#8, 0x3F#8] (.status 0) = true := by decide

/-- V42 and V43. -/
theorem test_configureServo_rejects :
    answersWith (ready 0x0C000A0020#40) (.status (-3)) = true ∧
    answersWith (ready 0x0C00800028#40) (.status (-2)) = true := by decide

/-- V1 and V3. -/
theorem test_setSpeed_frame :
    starts (ready 0x1000050000#40) [0x80#8, 0x01#8, 0x01#8, 0x05#8, 0x00#8] (.status 0) = true ∧
    starts (ready 0x10007F007F#40) [0x80#8, 0x01#8, 0x01#8, 0x7F#8, 0x7F#8] (.status 0) = true := by decide

/-- V7 and V8. -/
theorem test_setSpeed_checks :
    answersWith (ready 0x1000C800C8#40) (.status (-2)) = true ∧
    marks (ready 0x1000050080#40) .operandOutOfContract = true := by decide

/-- V11 and V13, in both split orders. -/
theorem test_setPosition_frame :
    starts (ready 0x3000020080#40) [0x80#8, 0x01#8, 0x03#8, 0x02#8, 0x01#8, 0x00#8] (.status 0) = true ∧
    starts (ready 0x30000300C8#40) [0x80#8, 0x01#8, 0x03#8, 0x03#8, 0x01#8, 0x48#8] (.status 0) = true ∧
    starts (readyWith lowFirst [0x30000300C8#40]) [0x80#8, 0x01#8, 0x03#8, 0x03#8, 0x48#8, 0x01#8] (.status 0) = true := by
  decide

/-- V15 and V16. -/
theorem test_setPosition_checks :
    marks (ready 0x3000040100#40) .operandOutOfContract = true ∧
    answersWith (ready 0x30012C0100#40) (.status (-2)) = true := by decide

/-- V17, in both split orders, and V18. -/
theorem test_setPositionAbsolute_frame :
    starts (ready 0x40000001F4#40) [0x80#8, 0x01#8, 0x04#8, 0x00#8, 0x03#8, 0x74#8] (.status 0) = true ∧
    starts (readyWith lowFirst [0x40000001F4#40]) [0x80#8, 0x01#8, 0x04#8, 0x00#8, 0x74#8, 0x03#8] (.status 0) = true ∧
    starts (ready 0x400001157C#40) [0x80#8, 0x01#8, 0x04#8, 0x01#8, 0x2A#8, 0x7C#8] (.status 0) = true := by decide

/-- V22, V23 and V27. -/
theorem test_setPositionAbsolute_rejects :
    answersWith (ready 0x40000001F3#40) (.status (-3)) = true ∧
    answersWith (ready 0x400000157D#40) (.status (-3)) = true ∧
    answersWith (ready 0x4000C80000#40) (.status (-2)) = true := by decide

/-- V28, in both split orders. -/
theorem test_setNeutral_frame :
    starts (ready 0x5000070BB8#40) [0x80#8, 0x01#8, 0x05#8, 0x07#8, 0x17#8, 0x38#8] (.status 0) = true ∧
    starts (readyWith lowFirst [0x5000070BB8#40]) [0x80#8, 0x01#8, 0x05#8, 0x07#8, 0x38#8, 0x17#8] (.status 0) = true := by
  decide

/-- V31 and V33. -/
theorem test_setNeutral_rejects :
    answersWith (ready 0x50000001F3#40) (.status (-3)) = true ∧
    answersWith (ready 0x5000800000#40) (.status (-2)) = true := by decide

/-- V44 and V46. -/
theorem test_setServoNumberBaseNumber_frame :
    starts (ready 0x8000000000#40) [0x80#8, 0x02#8, 0x00#8] (.status 0) = true ∧
    starts (ready 0x8000100000#40) [0x80#8, 0x02#8, 0x10#8] (.status 0) = true := by decide

/-- V47, under both codes; and 16 where the device's documentation bounds the range (90_conflicts.md C7). -/
theorem test_setServoNumberBaseNumber_rejects :
    answersWith (ready 0x8000110000#40) (.status (-2)) = true ∧
    answersWith (readyWith deviceText [0x8000110000#40]) (.status (-3)) = true ∧
    answersWith (readyWith deviceText [0x8000100000#40]) (.status (-3)) = true := by decide

/-- V50. -/
theorem test_blinkServoNumberBaseNumber_frame :
    starts (ready 0x9000000000#40) [0x80#8, 0x02#8, 0x10#8] .done = true := by decide

/-- V52 and V53. -/
theorem test_isValidServoId_answers :
    answersWith (ready 0xA0007F0000#40) (.bool true) = true ∧
    answersWith (ready 0xA000800000#40) (.bool false) = true := by decide

/-- V58 and V59: refused words set the mark; the step after the mark is refused (R7). -/
theorem test_refused_words :
    marks (ready 0x2000C80000#40) .reservedOp = true ∧ marks (ready 0x1100050000#40) .nonzeroUnusedField = true ∧
    step { ready 0x9000000000#40 with refused := some .reservedOp } = .refused (.refuse .reservedOp) := by
  refine ⟨by decide, by decide, rfl⟩

/-! ### Single steps of the reset and of the sequencing -/

/-- R2 of the vectors: released with `cfg_baud = 9600`; and R1, with none. -/
theorem test_release_loads_baud :
    after { State.reset with cfgBaudGiven := true, cfgBaud := 9600#32 }
      (fun t => decide (t.baud = 9600#32 ∧ t.phase = .init ∧ t.snkInitValid = true)) = true ∧
    after State.reset (fun t => decide (t.baud = 40000#32 ∧ t.phase = .init)) = true := by decide

/-- R5 of the vectors: `rst` asserted after two of V1's bytes; no response, the partial frame stays accepted. -/
theorem test_reset_in_busy :
    after { emitting 2 with script := [.assertReset] } (fun t =>
      decide (t.phase = .reset ∧ t.initDone = false ∧ t.rspTrace = [] ∧
        t.sinkTrace = [.sinkInit 40000#32, .emit 0x80#8, .emit 0x01#8])) = true := by decide

/-- R4 of the vectors: an offer waits in `INIT` while the sink does not accept; R6: a byte the sink does not accept holds. -/
theorem test_holds :
    after { ready 0x1000050000#40 with phase := .init, initDone := false, snkReady := false } (fun t =>
      decide (t.phase = .init ∧ t.offers = [0x1000050000#40] ∧ t.taken = [])) = true ∧
    after { emitting 0 with snkReady := false } (fun t => decide (t = { emitting 0 with snkReady := false })) = true := by
  decide

/-- After the last byte the response is delivered, tagged with its command (R50, R71). -/
theorem test_last_byte_then_response :
    after (emitting 4) (fun t => decide (t.idx = 5 ∧ t.phase = .busy ∧ t.rspTrace = [])) = true ∧
    after (emitting 5) (fun t => decide (t.phase = .idle ∧ t.rspTrace = [⟨1, .status 0⟩])) = true := by decide

/-! ### The assembler (R73 to R76) -/

/-- V13 and V41, in decimal and hexadecimal. -/
theorem test_assemble_lines :
    Asm.assembleLine "setPosition 3, 200".toList = .ok 0x30000300C8#40 ∧
    Asm.assembleLine "setPosition 0x3, 0xC8".toList = .ok 0x30000300C8#40 ∧
    Asm.assembleLine "configureServo 10, true, false, 40".toList = .ok 0x08000A0028#40 ∧
    Asm.assembleLine "blinkServoNumberBaseNumber".toList = .ok 0x9000000000#40 := by decide

/-- Digits of either case, and none beyond the base (R73). -/
theorem test_digits :
    Asm.readInt "0xaF".toList = some 175 ∧ Asm.readInt "0xAg".toList = none ∧ Asm.readInt "1A".toList = none := by decide

/-- R74: each refusal, by name, and the line it is on. -/
theorem test_assembler_refusals :
    Asm.assembleLine "setspeed 5, 0".toList = .error .unknownMnemonic ∧
    Asm.assembleLine "setSpeed 5, 0, 0".toList = .error .wrongOperandCount ∧
    Asm.assembleLine "setSpeed -1, 0".toList = .error .badInteger ∧
    Asm.assembleLine "setSpeed 65536, 0".toList = .error .badInteger ∧
    Asm.assembleLine "configureServo 0, yes, true, 15".toList = .error .badFlag ∧
    Asm.assemble ["setSpeed 5, 0".toList, "blinkServoNumberBaseNumber 1".toList] = .error (2, .wrongOperandCount) := by
  decide +revert

/-- V56 printed and read back: a refused word is a `.word` directive (R76). -/
theorem test_word_directive :
    Asm.printWord 0x2000000000#40 = ".word 0x2000000000".toList ∧
    Asm.readLine ".word 0x2000000000".toList = .ok 0x2000000000#40 := by decide

/-! ### Witnesses: what the hypotheses of the statements are met by -/

theorem wit_DecodeEncodeAgree :
    (Instr.configureServo 65535 true false 65535).wf = true ∧ (Instr.setSpeed 0 65535).wf = true ∧
    Instr.blinkServoNumberBaseNumber.wf = true := by decide

theorem wit_EncodeDecodeAgree : decode 0x4000C801F4#40 = .ok (.setPositionAbsolute 200 500) := by decide

theorem wit_DecodingIsTotal :
    (decode 0x0000000000#40 = .ok (.configureServo 0 false false 0) ∧ opOf 0x0000000000#40 ∉ reservedOps) ∧
    (decode 0xF000000000#40 = .error .reservedOp ∧ opOf 0xF000000000#40 ∈ reservedOps) ∧
    (decode 0x0100000000#40 = .error .nonzeroUnusedField ∧ opOf 0x0100000000#40 ∉ reservedOps) := by decide

theorem wit_ReservedOpSetsMark :
    (ready 0x2000C80000#40).Ready 0x2000C80000#40 [] ∧ (ready 0xF000000000#40).Ready 0xF000000000#40 [] ∧
    opOf 0x2000C80000#40 = 0x2 ∧ opOf 0xF000000000#40 = 0xF := ⟨ready_ready _, ready_ready _, by decide, by decide⟩

theorem wit_NonzeroUnusedFieldSetsMark :
    (∀ w, (ready w).Ready w []) ∧
    (opOf 0x0100000000#40 = 0x0 ∧ rsvOf 0x0100000000#40 ≠ 0) ∧
    (opOf 0x1800050000#40 = 0x1 ∧ enOf 0x1800050000#40 = true) ∧
    (opOf 0x4400000000#40 = 0x4 ∧ fwdOf 0x4400000000#40 = true) ∧
    (opOf 0x8000030001#40 = 0x8 ∧ argV 0x8000030001#40 ≠ 0) ∧
    (opOf 0xA000000001#40 = 0xA ∧ argV 0xA000000001#40 ≠ 0) ∧
    (opOf 0x9000010000#40 = 0x9 ∧ argA 0x9000010000#40 ≠ 0) := ⟨ready_ready, by decide⟩

theorem wit_StepRunsDecodedInstr :
    (ready 0x1000050000#40).params.valid = true ∧ (ready 0x1000050000#40).refused = none ∧
    (ready 0x1000050000#40).nextMove = .framer ∧ (ready 0x1000050000#40).cmdReady = true ∧
    (ready 0x1000050000#40).offers = 0x1000050000#40 :: [] ∧ decode 0x1000050000#40 = .ok (.setSpeed 5 0) := by decide

theorem wit_MarkStopsTheBlock :
    ({ State.reset with refused := some .reservedOp } : State).params.valid = true ∧
    ({ State.reset with refused := some .reservedOp } : State).refused = some .reservedOp := by decide

/-- Id 127 and 128, range 31 and 32 (V37, V42, V43). -/
theorem wit_ConfigureServoCommand :
    (∀ w, (ready w).Ready w []) ∧
    (∀ w ∈ [0x0C007F001F#40, 0x0C000A0020#40, 0x0C00800028#40], w &&& 0xF300000000#40 = 0x0000000000#40) ∧
    (bitsOf 0x0C007F001F 31 16 = 127 ∧ bitsOf 0x0C007F001F 15 0 = 31) ∧
    (bitsOf 0x0C000A0020 31 16 < 128 ∧ bitsOf 0x0C000A0020 15 0 = 32) ∧ bitsOf 0x0C00800028 31 16 = 128 :=
  ⟨ready_ready, each (by decide), by decide, by decide, by decide⟩

/-- V3, V5 and V8. -/
theorem wit_SetSpeedCommand :
    (∀ w, (ready w).Ready w []) ∧
    (∀ w ∈ [0x10007F007F#40, 0x1000800000#40, 0x1000050080#40], w &&& 0xFF00000000#40 = 0x1000000000#40) ∧
    (bitsOf 0x10007F007F 31 16 = 127 ∧ bitsOf 0x10007F007F 15 0 = 127) ∧ bitsOf 0x1000800000 31 16 = 128 ∧
    (bitsOf 0x1000050080 31 16 < 128 ∧ bitsOf 0x1000050080 15 0 = 128) :=
  ⟨ready_ready, each (by decide), by decide, by decide, by decide⟩

/-- V12, V14 and V15, and both split orders. -/
theorem wit_SetPositionCommand :
    (∀ w, (ready w).Ready w []) ∧ (∀ w, (readyWith lowFirst [w]).Ready w []) ∧
    (∀ w ∈ [0x30007F00FF#40, 0x3000800000#40, 0x3000040100#40], w &&& 0xFF00000000#40 = 0x3000000000#40) ∧
    (bitsOf 0x30007F00FF 31 16 = 127 ∧ bitsOf 0x30007F00FF 15 0 = 255) ∧ bitsOf 0x3000800000 31 16 = 128 ∧
    (bitsOf 0x3000040100 31 16 < 128 ∧ bitsOf 0x3000040100 15 0 = 256) :=
  ⟨ready_ready, fun w => readyWith_ready _ (by decide) w [], each (by decide), by decide, by decide, by decide⟩

/-- V17, V18, V22, V23 and V27, and both split orders. -/
theorem wit_SetPositionAbsoluteCommand :
    (∀ w, (ready w).Ready w []) ∧ (∀ w, (readyWith lowFirst [w]).Ready w []) ∧
    (∀ w ∈ [0x40000001F4#40, 0x400001157C#40, 0x40000001F3#40, 0x400000157D#40, 0x4000C80000#40],
      w &&& 0xFF00000000#40 = 0x4000000000#40) ∧
    bitsOf 0x40000001F4 15 0 = 500 ∧ bitsOf 0x400001157C 15 0 = 5500 ∧ bitsOf 0x40000001F3 15 0 = 499 ∧
    bitsOf 0x400000157D 15 0 = 5501 ∧ bitsOf 0x4000C80000 31 16 = 200 :=
  ⟨ready_ready, fun w => readyWith_ready _ (by decide) w [], each (by decide), by decide⟩

/-- V29, V30, V31 and V33, and both split orders. -/
theorem wit_SetNeutralCommand :
    (∀ w, (ready w).Ready w []) ∧ (∀ w, (readyWith lowFirst [w]).Ready w []) ∧
    (∀ w ∈ [0x50000001F4#40, 0x500000157C#40, 0x50000001F3#40, 0x500000157D#40, 0x5000800000#40],
      w &&& 0xFF00000000#40 = 0x5000000000#40) ∧
    bitsOf 0x50000001F4 15 0 = 500 ∧ bitsOf 0x500000157C 15 0 = 5500 ∧ bitsOf 0x50000001F3 15 0 = 499 ∧
    bitsOf 0x500000157D 15 0 = 5501 ∧ bitsOf 0x5000800000 31 16 = 128 :=
  ⟨ready_ready, fun w => readyWith_ready _ (by decide) w [], each (by decide), by decide⟩

/-- V44, V46 and V47; and 15 and 16 under `BASE_MAX = 15`. -/
theorem wit_SetServoNumberBaseNumberCommand :
    (∀ w, (ready w).Ready w []) ∧ (∀ w, (readyWith deviceText [w]).Ready w []) ∧
    (∀ w ∈ [0x8000000000#40, 0x80000F0000#40, 0x8000100000#40, 0x8000110000#40], w &&& 0xFF0000FFFF#40 = 0x8000000000#40) ∧
    Params.rb0.baseMax.toNat = bitsOf 0x8000100000 31 16 ∧ Params.rb0.baseMax.toNat < bitsOf 0x8000110000 31 16 ∧
    deviceText.baseMax.toNat = bitsOf 0x80000F0000 31 16 ∧ deviceText.baseMax.toNat < bitsOf 0x8000100000 31 16 :=
  ⟨ready_ready, fun w => readyWith_ready _ (by decide) w [], each (by decide), by decide⟩

theorem wit_BlinkServoNumberBaseNumberCommand :
    (ready 0x9000000000#40).Ready 0x9000000000#40 [] ∧
    (readyWith lowFirst [0x9000000000#40, 0xA000000000#40]).Ready 0x9000000000#40 [0xA000000000#40] :=
  ⟨ready_ready _, readyWith_ready _ (by decide) _ _⟩

/-- V52 and V53. -/
theorem wit_IsValidServoIdCommand :
    (∀ w, (ready w).Ready w []) ∧
    (∀ w ∈ [0xA0007F0000#40, 0xA000800000#40], w &&& 0xFF0000FFFF#40 = 0xA000000000#40) ∧
    bitsOf 0xA0007F0000 31 16 = 127 ∧ bitsOf 0xA000800000 31 16 = 128 := ⟨ready_ready, each (by decide), by decide, by decide⟩

theorem wit_ConfigureServoCompletes : 127 ≤ 127 ∧ 31 ≤ 31 := by decide

theorem wit_SetSpeedCompletes : 127 ≤ 127 ∧ 127 ≤ 127 := by decide

theorem wit_SetPositionCompletes : 127 ≤ 127 ∧ 255 ≤ 255 ∧ Params.rb0.splitOrder ≠ lowFirst.splitOrder := by decide

theorem wit_AbsoluteAndNeutralComplete : (127 ≤ 127 ∧ 500 ≤ 500 ∧ 500 ≤ 5500) ∧ (0 ≤ 127 ∧ 500 ≤ 5500 ∧ 5500 ≤ 5500) := by
  decide

theorem wit_SetServoNumberBaseNumberCompletes :
    16 ≤ (match State.reset.params.baseMax with | .sixteen => 16 | .fifteen => 15) ∧
    15 ≤ (match deviceText.baseMax with | .sixteen => 16 | .fifteen => 15) := by decide

theorem wit_InvalidServoIdFirst : 128 ≤ 128 ∧ 128 ≤ 65535 := by decide

/-- Each clause at its boundaries, with the id 127: 499 and 5501, 32, and 17 or 16 by `BASE_MAX`. -/
theorem wit_ValueErrorsRejected :
    127 ≤ 127 ∧ (499 < 500 ∨ 5500 < 499) ∧ (5501 < 500 ∨ 5500 < 5501) ∧ 31 < 32 ∧
    (match State.reset.params.baseMax with | .sixteen => 16 | .fifteen => 15) < 17 ∧
    (match deviceText.baseMax with | .sixteen => 16 | .fifteen => 15) < 16 := by decide

theorem wit_OutOfContractSetsMark : 127 ≤ 127 ∧ 127 < 128 ∧ 255 < 256 := by decide

/-- A next state of each shape: a frame, a response, the mark. -/
theorem wit_InstructionFrame :
    exec .blinkServoNumberBaseNumber State.reset =
      .next (State.reset.startFrame [0x80#8, 0x02#8, 0x10#8] .done) ∧
    exec (.isValidServoId 0) State.reset = .next (State.reset.respond (.bool true)) ∧
    exec (.setSpeed 0 128) State.reset = .next (State.reset.markRefused .operandOutOfContract) := ⟨rfl, rfl, rfl⟩

theorem wit_RejectionOnlyResponds :
    (ready 0x1000800000#40).Ready 0x1000800000#40 [] ∧ outcome (ready 0x1000800000#40).params 0x1000800000#40 = .reject (-2) ∧
    (ready 0x40000001F3#40).Ready 0x40000001F3#40 [] ∧
    outcome (ready 0x40000001F3#40).params 0x40000001F3#40 = .reject (-3) :=
  ⟨ready_ready _, by decide, ready_ready _, by decide⟩

/-- Each error's boundary: id 128; 499 and 5501; range 32; base 17 under either code. -/
theorem wit_RejectionCauses :
    outcome Params.rb0 0x1000800000#40 = .reject (-2) ∧ outcome Params.rb0 0x3000800000#40 = .reject (-2) ∧
    outcome Params.rb0 0x40000001F3#40 = .reject (-3) ∧ outcome Params.rb0 0x500000157D#40 = .reject (-3) ∧
    outcome Params.rb0 0x0C000A0020#40 = .reject (-3) ∧ outcome Params.rb0 0x8000110000#40 = .reject (-2) ∧
    outcome deviceText 0x8000110000#40 = .reject (-3) := by decide

/-- Each refusal's cause; and a record whose sync byte has its top bit clear (R3). -/
theorem wit_RefusalCauses :
    outcome Params.rb0 0x2000000000#40 = .refuse .reservedOp ∧
    outcome Params.rb0 0x1100050000#40 = .refuse .nonzeroUnusedField ∧
    outcome Params.rb0 0x1000050080#40 = .refuse .operandOutOfContract ∧
    outcome Params.rb0 0x3000040100#40 = .refuse .operandOutOfContract ∧
    ({ State.reset with params := { Params.rb0 with syncByte := 0x00#8 } } : State).params.valid = false := by decide

/-- Two ready blocks with one record and different pasts; the word is V1. -/
theorem wit_NoStateSurvivesACommand :
    (ready 0x1000050000#40).Ready 0x1000050000#40 [] ∧
    ({ ready 0x1000050000#40 with baud := 9600#32, taken := [0x9000000000#40] } : State).Ready 0x1000050000#40 [] ∧
    Accepted Params.rb0 0x1000050000#40 := by
  refine ⟨ready_ready _, ⟨by decide, rfl, rfl, rfl, rfl, rfl, rfl⟩, fun r => ?_⟩
  rw [show outcome Params.rb0 0x1000050000#40 = .frame [0x80#8, 0x01#8, 0x01#8, 0x05#8, 0x00#8] (.status 0) by decide]
  simp

/-- A frame of each length. -/
theorem wit_FrameShape :
    Params.rb0.valid = true ∧ outcome Params.rb0 0x9000000000#40 = .frame [0x80#8, 0x02#8, 0x10#8] .done ∧
    outcome Params.rb0 0x1000050000#40 = .frame [0x80#8, 0x01#8, 0x01#8, 0x05#8, 0x00#8] (.status 0) ∧
    outcome Params.rb0 0x5000070BB8#40 = .frame [0x80#8, 0x01#8, 0x05#8, 0x07#8, 0x17#8, 0x38#8] (.status 0) := by decide

theorem wit_FrameLengths :
    instrOutcome Params.rb0 .blinkServoNumberBaseNumber = .frame [0x80#8, 0x02#8, 0x10#8] .done ∧
    instrOutcome Params.rb0 (.setSpeed 5 0) = .frame [0x80#8, 0x01#8, 0x01#8, 0x05#8, 0x00#8] (.status 0) := by decide

theorem wit_ReceiverFindsLength :
    lowFirst.valid = true ∧
    outcome lowFirst 0x5000070BB8#40 = .frame [0x80#8, 0x01#8, 0x05#8, 0x07#8, 0x38#8, 0x17#8] (.status 0) := by decide

theorem wit_OnlyKnownCommandBytes :
    Params.rb0.valid = true ∧ dirOne.valid = true ∧ dirOne ≠ Params.rb0 ∧
    outcome dirOne 0x0C000A000F#40 = .frame [0x80#8, 0x01#8, 0x00#8, 0x0A#8, 0x6F#8] (.status 0) ∧
    outcome dirOne 0x8000100000#40 = .frame [0x80#8, 0x02#8, 0x10#8] (.status 0) := by decide

theorem wit_SplitLosesNoBit : 0 ≤ 5500 ∧ 255 ≤ 5500 ∧ 256 ≤ 5500 ∧ 5500 ≤ 5500 ∧ ¬ 256 ≤ 255 := by decide

/-- RB0, and a valid record that is not RB0. -/
theorem wit_ConfigureByteBits :
    Params.rb0.valid = true ∧
    ({ Params.rb0 with cfgEnPos := 0, cfgDirPos := 1, cfgRangeLsb := 2, enOnBit := false } : Params).valid = true := by decide

theorem wit_ResetEndsEverything :
    ({ emitting 2 with script := [.assertReset] } : State).params.valid = true ∧
    ({ emitting 2 with script := [.assertReset] } : State).refused = none ∧
    ({ emitting 2 with script := [.assertReset] } : State).nextMove = .assertReset := by decide

theorem wit_ReleaseLoadsBaud :
    State.reset.params.valid = true ∧ State.reset.refused = none ∧ State.reset.phase = .reset ∧
    State.reset.nextMove = .releaseReset ∧ State.reset.cfgBaudGiven = false ∧
    ({ State.reset with cfgBaudGiven := true, cfgBaud := 0#32 } : State).nextMove = .releaseReset := by decide

theorem wit_SinkInitOpensThePort :
    (∀ b : Bool, ({ State.reset with phase := .init, snkReady := b } : State).params.valid = true ∧
      ({ State.reset with phase := .init, snkReady := b } : State).refused = none ∧
      ({ State.reset with phase := .init, snkReady := b } : State).nextMove = .framer) := by decide

/-- A reset released with `cfg_baud = 9600`, a sink that at first does not accept, and a host that offers V1 meanwhile. -/
def delayedStart : State :=
  { State.reset with
    cfgBaudGiven := true, cfgBaud := 9600#32, snkReady := false
    script := [.releaseReset, .hostOffer 0x1000050000#40, .framer, .sinkReady true, .framer] }

theorem wit_StartUpState :
    ∃ u t, delayedStart.phase = .reset ∧ delayedStart.nextMove = .releaseReset ∧ step delayedStart = .next u ∧ u.NoReset ∧
      run 4 u = .next t ∧ t.initDone = true ∧ ∀ m < 4, ∀ v, run m u = .next v → v.initDone = false := by
  refine ⟨_, _, rfl, rfl, rfl, by unfold State.NoReset; decide, rfl, rfl, fun m hm v hv => ?_⟩
  match m, hm with
  | 0, _ => cases hv; rfl
  | 1, _ => cases hv; rfl
  | 2, _ => cases hv; rfl
  | 3, _ => cases hv; rfl

theorem wit_StartUpInTwoSteps :
    State.reset.params.valid = true ∧ State.reset.refused = none ∧ State.reset.phase = .reset ∧ State.reset.script = [] ∧
    State.reset.snkReady = true := by decide

/-- The ready block meets the invariant. -/
theorem ready_inv (w : CmdWord) : (ready w).Inv where
  valid := by show Params.rb0.valid = true; decide
  initDone_iff := ⟨fun _ => .inl rfl, fun _ => rfl⟩
  frame_le := by show ([] : List Byte).length ≤ 6; decide
  idx_le := by show 0 ≤ ([] : List Byte).length; decide
  busy_frame := fun h => absurd h (by show Phase.idle ≠ Phase.busy; decide)
  busy_sent := fun h => absurd h (by show Phase.idle ≠ Phase.busy; decide)
  tags_rising := List.Pairwise.nil
  tags_range := fun a h => absurd h (List.not_mem_nil)
  busy_open := fun h => absurd h (by show Phase.idle ≠ Phase.busy; decide)

/-- The emitting block meets it, after its first byte and after its last. -/
theorem emitting_inv : (emitting 1).Inv ∧ (emitting 5).Inv := by
  constructor <;> exact {
    valid := by decide
    initDone_iff := by decide
    frame_le := by decide
    idx_le := by decide
    busy_frame := fun _ => ⟨0x1000050000#40, by decide, by decide⟩
    busy_sent := fun _ => by decide
    tags_rising := by decide
    tags_range := by decide
    busy_open := by decide }

theorem wit_NoSecondSinkInit :
    (ready 0x1000050000#40).Inv ∧ (ready 0x1000050000#40).initDone = true ∧ (ready 0x1000050000#40).NoReset ∧
    run 1 (ready 0x1000050000#40) =
      .next ((ready 0x1000050000#40).takeWord 0x1000050000#40 [] |>.startFrame
        [0x80#8, 0x01#8, 0x01#8, 0x05#8, 0x00#8] (.status 0)) :=
  ⟨ready_inv _, rfl, List.not_mem_nil, rfl⟩

/-- A step of each of the four clauses: the release with a rate given, a reset of an initialised block, and `SinkInit`. -/
theorem wit_OnlyResetWritesControl :
    after { State.reset with cfgBaudGiven := true, cfgBaud := 9600#32 } (fun t => decide (t.baud ≠ 40000#32)) = true ∧
    after { emitting 2 with script := [.assertReset] } (fun t => !t.initDone) = true ∧
    after { State.reset with phase := .init } (fun t => t.initDone) = true := by decide

/-- A hang in `INIT` and a hang in `BUSY`. -/
theorem wit_HangStaysAsItIs :
    ({ State.reset with phase := .init, snkReady := false } : State).Hung ∧
    ({ emitting 1 with snkReady := false } : State).Hung ∧
    ({ emitting 1 with snkReady := false } : State).params.valid = true ∧ (emitting 1).refused = none :=
  ⟨⟨rfl, rfl, .inl rfl⟩, ⟨rfl, rfl, .inr rfl⟩, by decide, rfl⟩

/-- A word offered while a frame is being emitted. -/
theorem wit_OffersWait :
    ({ emitting 1 with offers := [0x9000000000#40] } : State).cmdReady = false ∧
    step { emitting 1 with offers := [0x9000000000#40] } =
      .next ({ emitting 1 with offers := [0x9000000000#40] } |>.acceptByte 0x01#8) := ⟨rfl, rfl⟩

/-- Each clause: a byte accepted, a byte not accepted, and the response after the last byte. -/
theorem wit_BusyTransitions :
    ((emitting 4).params.valid = true ∧ (emitting 4).refused = none ∧ (emitting 4).phase = .busy ∧
      (emitting 4).nextMove = .framer ∧ (emitting 4).frame[(emitting 4).idx]? = some 0x00#8 ∧ (emitting 4).snkReady = true) ∧
    (({ emitting 4 with snkReady := false } : State).nextMove = .framer ∧ (emitting 4).idx < (emitting 4).frame.length) ∧
    ((emitting 5).nextMove = .framer ∧ (emitting 5).idx = (emitting 5).frame.length) := by decide

theorem wit_ResponseAfterLastByte :
    (emitting 5).Inv ∧ (emitting 5).phase = .busy ∧ step (emitting 5) = .next (emitting 5).deliver ∧
    (emitting 5).deliver.rspTrace ≠ (emitting 5).rspTrace := ⟨emitting_inv.2, rfl, rfl, by decide⟩

/-- A step that extends each trace. -/
theorem wit_TracesOnlyGrow :
    step (emitting 1) = .next ((emitting 1).acceptByte 0x01#8) ∧ step (emitting 5) = .next (emitting 5).deliver ∧
    step (ready 0x9000000000#40) =
      .next ((ready 0x9000000000#40).takeWord 0x9000000000#40 [] |>.startFrame [0x80#8, 0x02#8, 0x10#8] .done) :=
  ⟨rfl, rfl, rfl⟩

theorem wit_PortsExclusive :
    (emitting 1).snkByteValid = true ∧ (ready 0x9000000000#40).cmdReady = true ∧ State.reset.rst = true := by decide

theorem wit_StepKeepsInvariant :
    (emitting 1).Inv ∧ step (emitting 1) = .next ((emitting 1).acceptByte 0x01#8) ∧
    (emitting 5).Inv ∧ step (emitting 5) = .next (emitting 5).deliver := ⟨emitting_inv.1, rfl, emitting_inv.2, rfl⟩

/-- Reset asserted in the middle of a frame. -/
theorem wit_StreamStartsAtReset :
    ({ emitting 2 with script := [.assertReset] } : State).nextMove = .assertReset ∧
    step { emitting 2 with script := [.assertReset] } = .next (emitting 2).assertReset := ⟨rfl, rfl⟩

/-- A command under way since a reset with empty traces. -/
theorem wit_StepKeepsStream :
    (emitting 1).StreamSince [] [] [] ∧ (emitting 1).nextMove ≠ .assertReset ∧
    step (emitting 1) = .next ((emitting 1).acceptByte 0x01#8) :=
  ⟨⟨[], 0x1000050000#40, rfl, by decide, by decide, rfl, rfl⟩, by decide, rfl⟩

/-- Three words of different kinds of outcome, with one more left. -/
theorem wit_CommandSequenceRuns :
    ∀ s : State, s = readyWith Params.rb0 [0xA000C80000#40, 0x4000C801F4#40, 0x500064157C#40, 0x9000000000#40] →
    s.params.valid = true ∧ s.refused = none ∧ s.script = [] ∧ s.snkReady = true ∧ s.phase = .idle ∧ s.initDone = true ∧
    s.offers = [0xA000C80000#40, 0x4000C801F4#40, 0x500064157C#40] ++ [0x9000000000#40] ∧
    ∀ w ∈ [0xA000C80000#40, 0x4000C801F4#40, 0x500064157C#40], Accepted s.params w := by
  rintro s rfl
  refine ⟨by decide, rfl, rfl, rfl, rfl, rfl, rfl, fun w hw r => ?_⟩
  cases r <;> exact each (P := fun w => outcome Params.rb0 w ≠ .refuse _) (by decide) w hw

theorem wit_PrintedWordReadsBack :
    decode 0x30000300C8#40 = .ok (.setPosition 3 200) ∧ decode 0x2000000000#40 = .error .reservedOp := by decide

theorem wit_AssembledWordsDecode : Asm.assembleLine "setSpeed 5".toList = .ok 0x1000050000#40 := by decide

end Sys2Proof.Tests
end

section
/-!
PROOFS. The scope of the model (00_scope.md): the refusal mark stops the block (R7).
-/
namespace Sys2Proof.Machine

/-- The mark is read before the next agent's move, so the plan is to stop whoever would move (R7). -/
theorem plan_of_marked {s : State} {r : RefuseReason} (hv : s.params.valid = true) (hr : s.refused = some r) :
    plan s = .stop r := by
  simp only [plan, hv, hr, if_true]

/-- A marked block takes no step: it stops under the mark's reason (R7). -/
theorem step_of_marked {s : State} {r : RefuseReason} (hv : s.params.valid = true) (hr : s.refused = some r) :
    step s = .refused (.refuse r) :=
  congrArg carryOut (plan_of_marked hv hr)

/-- Settles O8: the plan of a marked block is to stop, and no agent's move is looked at. -/
theorem markStopsTheBlock : Obligations.MarkStopsTheBlock :=
  fun _ _ hv hr => step_of_marked hv hr

end Sys2Proof.Machine
end

section
/-!
PROOFS. The state record (10_state.md): what the moves of the environment and the framer's transitions leave of it, field by
field (R23, R24, R26), on top of the case lemmas of Sys2Proof/Laws/Step.lean.
-/
namespace Sys2Proof.Machine

/-! ### The moves of the environment (R8) -/

section
variable (s : State) (m : Move)

@[simp] theorem State.envMove_params : (s.envMove m).params = s.params := by
  cases m with
  | releaseReset => exact s.releaseReset_params
  | _ => rfl

@[simp] theorem State.envMove_taken : (s.envMove m).taken = s.taken := by
  cases m with
  | releaseReset => exact s.releaseReset_taken
  | _ => rfl

@[simp] theorem State.envMove_sinkTrace : (s.envMove m).sinkTrace = s.sinkTrace := by
  cases m with
  | releaseReset => exact s.releaseReset_sinkTrace
  | _ => rfl

@[simp] theorem State.envMove_script : (s.envMove m).script = s.script := by
  cases m with
  | releaseReset => exact s.releaseReset_script
  | _ => rfl

/-- Only a host offer touches the offers, and it goes behind those that wait (R26, R128). -/
theorem State.offers_prefix_envMove : s.offers <+: (s.envMove m).offers := by
  cases m with
  | hostOffer w => exact s.offers.prefix_append [w]
  | releaseReset => rw [State.envMove, s.releaseReset_offers]
  | _ => exact List.prefix_rfl

variable {s m}

/-- A move of the environment that writes `BAUD` is a release of an asserted reset (R23, R136). -/
theorem State.released_of_envMove_baud (h : (s.envMove m).baud ≠ s.baud) : s.phase = .reset ∧ m = .releaseReset := by
  cases m with
  | releaseReset =>
    refine ⟨?_, rfl⟩
    by_contra hp
    exact h (congrArg State.baud (s.releaseReset_of_not_reset hp))
  | _ => exact absurd rfl h

/-- A move of the environment that clears `INIT_DONE` asserts reset or releases an asserted one (R24, R135, R136). -/
theorem State.reset_of_envMove_clears (hs : s.initDone = true) (ht : (s.envMove m).initDone = false) :
    m = .assertReset ∨ s.phase = .reset ∧ m = .releaseReset := by
  cases m with
  | assertReset => exact .inl rfl
  | releaseReset =>
    refine .inr ⟨?_, rfl⟩
    by_contra hp
    rw [State.envMove, s.releaseReset_of_not_reset hp, hs] at ht
    cases ht
  | _ => exact absurd (hs.symm.trans ht) (by decide)

/-- No move of the environment sets `INIT_DONE` (R24). -/
theorem State.envMove_initDone_eq_false (hs : s.initDone = false) : (s.envMove m).initDone = false := by
  cases m with
  | assertReset => rfl
  | releaseReset =>
    by_cases hp : s.phase = .reset
    · rw [State.envMove, s.releaseReset_of_reset hp]
    · rw [State.envMove, s.releaseReset_of_not_reset hp, hs]
  | _ => exact hs

end

/-! ### The framer's transitions (R26) -/

namespace FramerStep
variable {s t : State}

theorem params_eq (h : FramerStep s t) : t.params = s.params := by cases h <;> simp

theorem baud_eq (h : FramerStep s t) : t.baud = s.baud := by cases h <;> simp

theorem script_eq (h : FramerStep s t) : t.script = s.script := by cases h <;> simp

/-- No transition of the framer clears `INIT_DONE` (R24). -/
theorem initDone_mono (h : FramerStep s t) (hs : s.initDone = true) : t.initDone = true := by
  cases h <;> simp [hs]

/-- The one transition that sets `INIT_DONE` is the acceptance of `SinkInit(BAUD)` (R24, R137). -/
theorem initAccepted_of_initDone (h : FramerStep s t) (hs : s.initDone = false) (ht : t.initDone = true) :
    s.phase = .init ∧ s.snkReady = true ∧ t = s.acceptInit := by
  cases h with
  | initAccepted hp hr => exact ⟨hp, hr, rfl⟩
  | accepted _ hd => rw [hs] at hd; cases hd
  | _ => exact absurd (hs.symm.trans ht) (by decide)

/-- Only the acceptance of a word takes one from the port, and it needs `cmd_ready` (R26). -/
theorem offers_of_not_cmdReady (h : FramerStep s t) (hc : s.cmdReady = false) : t.taken = s.taken ∧ t.offers = s.offers := by
  cases h with
  | accepted hp hd => simp [State.cmdReady, hp, hd] at hc
  | _ => exact ⟨rfl, rfl⟩

/-- Outside `INIT` the framer offers no `SinkInit` (R136), so the count of those accepted stays. -/
theorem countInits_eq (h : FramerStep s t) (hp : s.phase ≠ .init) : countInits t.sinkTrace = countInits s.sinkTrace := by
  cases h with
  | initAccepted hi => exact absurd hi hp
  | byteAccepted _ _ b => simp [countInits]
  | accepted => simp
  | _ => rfl

end FramerStep

/-! ### The instructions' outcomes (R11) -/

/-- What the outcome of a decoded command can be: a rejection, an answer, the one refusal R118 leaves to the operands, or a
frame of at most six bytes (R68). -/
inductive CmdOutcome.OfInstr : CmdOutcome → Prop where
  | reject (code : Int) : OfInstr (.reject code)
  | answer (t : Bool) : OfInstr (.answer t)
  | refuse : OfInstr (.refuse .operandOutOfContract)
  | frame (f : List Byte) (r : Response) (hf : f.length ≤ frameMax) : OfInstr (.frame f r)

@[simp] theorem frameMax_eq : frameMax = 6 := rfl

theorem servoChecked_ofInstr (id : Nat) {o : CmdOutcome} (h : o.OfInstr) : (servoChecked id o).OfInstr := by
  unfold servoChecked
  split
  · exact h
  · exact .reject _

theorem servoFrame_ofInstr (p : Params) (cmd : Byte) (id : Nat) {data : List Byte} (h : data.length ≤ 2) :
    (servoFrame p cmd id data).OfInstr :=
  .frame _ _ (by simp [sFrame]; omega)

theorem split2_length (p : Params) (hi lo : Nat) : (split2 p hi lo).length = 2 := by
  unfold split2
  split <;> rfl

theorem absOutcome_ofInstr (p : Params) (cmd : Byte) (id position : Nat) : (absOutcome p cmd id position).OfInstr := by
  refine servoChecked_ofInstr id ?_
  split
  · exact servoFrame_ofInstr p _ id (split2_length ..).le
  · exact .reject _

theorem instrOutcome_ofInstr (p : Params) (i : Instr) : (instrOutcome p i).OfInstr := by
  cases i with
  | configureServo id en fwd range =>
    refine servoChecked_ofInstr id ?_
    split
    · exact servoFrame_ofInstr p _ id (by simp)
    · exact .reject _
  | setSpeed id speed =>
    refine servoChecked_ofInstr id ?_
    split
    · exact servoFrame_ofInstr p _ id (by simp)
    · exact .refuse
  | setPosition id position =>
    refine servoChecked_ofInstr id ?_
    split
    · exact servoFrame_ofInstr p _ id (split2_length ..).le
    · exact .refuse
  | setPositionAbsolute id position => exact absOutcome_ofInstr p _ id position
  | setNeutral id position => exact absOutcome_ofInstr p _ id position
  | setServoNumberBaseNumber base =>
    simp only [instrOutcome, setServoNumberBaseNumberOutcome]
    split
    · exact .frame _ _ (by simp [bFrame])
    · exact .reject _
  | blinkServoNumberBaseNumber => exact .frame _ _ (by simp [bFrame])
  | isValidServoId id => exact .answer _

/-- No word starts a frame longer than `FRAME` holds (R68). -/
theorem outcome_frame_length_le {p : Params} {w : CmdWord} {f : List Byte} {r : Response} (h : outcome p w = .frame f r) :
    f.length ≤ frameMax := by
  cases hd : decode w with
  | ok i =>
    have ho := instrOutcome_ofInstr p i
    rw [← outcome_of_decode hd, h] at ho
    cases ho with
    | frame _ _ hf => exact hf
  | error x => rw [outcome_of_decode_error hd] at h; cases h

end Sys2Proof.Machine
end

section
/-!
PROOFS. The invariant of the state record (10_state.md): it holds right after reset, and every step keeps it (R24, R26, R50,
R139).
-/
namespace Sys2Proof.Machine

/-- The invariant reads neither `BAUD`, the mark, the input ports, the offers nor the model's own fields. -/
theorem State.Inv.of_unread {s : State} (h : s.Inv) (baud : Rate) (refused : Option RefuseReason) (cfgBaud : Rate)
    (cfgBaudGiven : Bool) (offers : List CmdWord) (snkReady : Bool) (script : List Move) (freeCount : Nat) :
    ({ s with baud, refused, cfgBaud, cfgBaudGiven, offers, snkReady, script, freeCount } : State).Inv :=
  ⟨h.valid, h.initDone_iff, h.frame_le, h.idx_le, h.busy_frame, h.busy_sent, h.tags_rising, h.tags_range, h.busy_open⟩

/-- Outside `BUSY` the invariant says nothing of a frame under way. -/
theorem State.Inv.of_not_busy {s : State} (hp : s.phase ≠ .busy) (valid : s.params.valid = true)
    (initDone_iff : s.initDone = true ↔ s.phase = .idle) (frame_le : s.frame.length ≤ frameMax)
    (idx_le : s.idx ≤ s.frame.length) (tags_rising : (s.rspTrace.map Answered.cmd).Pairwise (· < ·))
    (tags_range : ∀ a ∈ s.rspTrace, 1 ≤ a.cmd ∧ a.cmd ≤ s.taken.length) : s.Inv where
  valid := valid
  initDone_iff := by simp [initDone_iff, hp]
  frame_le := frame_le
  idx_le := idx_le
  busy_frame := fun h => absurd h hp
  busy_sent := fun h => absurd h hp
  tags_rising := tags_rising
  tags_range := tags_range
  busy_open := fun h => absurd h hp

/-- The free values of `FRAME` and `IDX` are in the fields' ranges (R30). -/
theorem State.freeFrameFields_frame_le (s : State) : s.freeFrameFields.frame.length ≤ frameMax :=
  List.length_take_le _ _

theorem State.freeFrameFields_idx_le (s : State) : s.freeFrameFields.idx ≤ s.freeFrameFields.frame.length :=
  Nat.min_le_right _ _

/-! ### The tags of the responses (R9, R71) -/

/-- A response to a later command than those answered keeps the tags rising. -/
theorem tags_rising_append {tr : List Answered} {n : Nat} (r : Response) (h : (tr.map Answered.cmd).Pairwise (· < ·))
    (hn : ∀ a ∈ tr, a.cmd < n) : ((tr ++ [Answered.mk n r]).map Answered.cmd).Pairwise (· < ·) := by
  rw [List.map_append, List.pairwise_append]
  exact ⟨h, List.pairwise_singleton _ _, by simpa using hn⟩

/-- A response to the command accepted last keeps the tags in range. -/
theorem tags_range_append {tr : List Answered} {n : Nat} (r : Response) (h : ∀ a ∈ tr, 1 ≤ a.cmd ∧ a.cmd ≤ n)
    (hn : 1 ≤ n) : ∀ a ∈ tr ++ [⟨n, r⟩], 1 ≤ a.cmd ∧ a.cmd ≤ n := by
  simpa [or_imp, forall_and, hn] using h

/-! ### One lemma per transition -/

section
variable {s : State}

theorem State.Inv.popMove (h : s.Inv) : s.popMove.Inv := h.of_unread ..

theorem State.Inv.assertReset (h : s.Inv) : s.assertReset.Inv :=
  .of_not_busy (by simp) h.valid (by simp) (State.freeFrameFields_frame_le _) (State.freeFrameFields_idx_le _)
    h.tags_rising h.tags_range

theorem State.Inv.releaseReset (h : s.Inv) : s.releaseReset.Inv := by
  by_cases hp : s.phase = .reset
  · rw [s.releaseReset_of_reset hp]
    exact .of_not_busy (by simp) h.valid (by simp) h.frame_le h.idx_le h.tags_rising h.tags_range
  · rwa [s.releaseReset_of_not_reset hp]

theorem State.Inv.envMove (h : s.Inv) (m : Move) : (s.envMove m).Inv := by
  cases m with
  | framer => exact h
  | assertReset => exact h.assertReset
  | releaseReset => exact h.releaseReset
  | presentBaud | hostOffer | sinkReady => exact h.of_unread ..

theorem State.Inv.acceptInit (h : s.Inv) : s.acceptInit.Inv :=
  .of_not_busy (by simp) h.valid (by simp) h.frame_le h.idx_le h.tags_rising h.tags_range

/-- The byte accepted is the next one of the frame, so the bytes below `IDX` are still the end of the sink trace (R50). -/
theorem State.Inv.acceptByte (h : s.Inv) {b : Byte} (hp : s.phase = .busy) (hb : s.frame[s.idx]? = some b) :
    (s.acceptByte b).Inv where
  valid := h.valid
  initDone_iff := h.initDone_iff
  frame_le := h.frame_le
  idx_le := (List.getElem?_eq_some_iff.mp hb).1
  busy_frame := h.busy_frame
  busy_sent := fun _ => by
    simp only [State.acceptByte_frame, State.acceptByte_idx, State.acceptByte_sinkTrace, List.take_add_one, hb,
      Option.toList_some, List.map_append, List.map_cons, List.map_nil]
    exact (List.suffix_append_inj_of_length_eq rfl).mpr ⟨h.busy_sent hp, rfl⟩
  tags_rising := h.tags_rising
  tags_range := h.tags_range
  busy_open := h.busy_open

/-- In `BUSY` a command is under way, so its response has a number (R9). -/
theorem State.Inv.taken_pos (h : s.Inv) (hp : s.phase = .busy) : 1 ≤ s.taken.length := by
  obtain ⟨w, hw, -⟩ := h.busy_frame hp
  exact List.length_pos_of_mem (List.mem_of_getLast? hw)

theorem State.Inv.deliver (h : s.Inv) (hp : s.phase = .busy) : s.deliver.Inv :=
  .of_not_busy (by simp) h.valid (by simp [h.initDone_iff, hp]) (State.freeFrameFields_frame_le _)
    (State.freeFrameFields_idx_le _) (tags_rising_append _ h.tags_rising (h.busy_open hp))
    (tags_range_append _ h.tags_range (h.taken_pos hp))

/-- Taking a word in `IDLE` keeps the invariant and leaves the taken word without a response. -/
theorem State.Inv.takeWord (h : s.Inv) (hp : s.phase = .idle) (w : CmdWord) (rest : List CmdWord) :
    (s.takeWord w rest).Inv ∧ ∀ a ∈ s.rspTrace, a.cmd < (s.takeWord w rest).taken.length := by
  have hlen : (s.takeWord w rest).taken.length = s.taken.length + 1 := by simp
  refine ⟨.of_not_busy (by simp [hp]) h.valid (by simp [h.initDone_iff, hp]) h.frame_le h.idx_le h.tags_rising
    fun a ha => ?_, fun a ha => ?_⟩
  all_goals
    obtain ⟨hpos, hle⟩ := h.tags_range a ha
    omega

/-- A response in `IDLE` to the word just taken. -/
theorem State.Inv.respond (h : s.Inv) (hp : s.phase = .idle) (hn : 1 ≤ s.taken.length)
    (ho : ∀ a ∈ s.rspTrace, a.cmd < s.taken.length) (r : Response) : (s.respond r).Inv :=
  .of_not_busy (by simp [hp]) h.valid (by simp [h.initDone_iff, hp]) h.frame_le h.idx_le
    (tags_rising_append r h.tags_rising ho) (tags_range_append r h.tags_range hn)

/-- The word just taken starts its frame. -/
theorem State.Inv.startFrame (h : s.Inv) (hd : s.initDone = true) (ho : ∀ a ∈ s.rspTrace, a.cmd < s.taken.length)
    {w : CmdWord} {f : List Byte} {r : Response} (hw : s.taken.getLast? = some w)
    (hf : outcome s.params w = .frame f r) : (s.startFrame f r).Inv where
  valid := h.valid
  initDone_iff := by simp [hd]
  frame_le := outcome_frame_length_le hf
  idx_le := Nat.zero_le _
  busy_frame := fun _ => ⟨w, hw, hf⟩
  busy_sent := fun _ => by simp
  tags_rising := h.tags_rising
  tags_range := h.tags_range
  busy_open := fun _ => ho

/-- Accepting a word and performing its outcome: by the outcome (R26, R46, R116). -/
theorem State.Inv.accept (h : s.Inv) (hp : s.phase = .idle) (hd : s.initDone = true) (w : CmdWord) (rest : List CmdWord) :
    ((s.takeWord w rest).perform (outcome s.params w)).Inv := by
  obtain ⟨ht, ho⟩ := h.takeWord hp w rest
  cases hw : outcome s.params w with
  | reject c => exact ht.respond hp (by simp) ho _
  | answer b => exact ht.respond hp (by simp) ho _
  | refuse x => exact ht.of_unread ..
  | frame f r => exact ht.startFrame hd ho (by simp) hw

theorem State.Inv.framerStep {t : State} (h : s.Inv) (hs : FramerStep s t) : t.Inv := by
  cases hs with
  | hold => exact h
  | initAccepted => exact h.acceptInit
  | byteAccepted hp _ b hb => exact h.acceptByte hp hb
  | delivered hp => exact h.deliver hp
  | accepted hp hd w rest => exact h.accept hp hd w rest

end

/-- Settles O53: by the agent that moves, and for the framer by its transition. -/
theorem stepKeepsInvariant : Obligations.StepKeepsInvariant := by
  intro s t h hst
  obtain ⟨-, -, ⟨-, rfl⟩ | ⟨-, hf⟩⟩ := step_cases hst
  · exact h.popMove.envMove _
  · exact h.popMove.framerStep hf

/-- Settles O52: right after reset no frame is under way and nothing has been answered. -/
theorem resetMeetsInvariant : Obligations.ResetMeetsInvariant :=
  State.Inv.of_not_busy (by decide) (by decide) (by decide) (by decide) (by decide) .nil (by simp [State.reset])

end Sys2Proof.Machine
end

section
/-!
PROOFS. Who writes the control registers, what reset starts, and what waits (10_state.md R23, R24, R26, R30; R120, R138).
-/
namespace Sys2Proof.Machine

/-- Settles O45: by the agent that moves, from what its moves write. -/
theorem onlyResetWritesControl : Obligations.OnlyResetWritesControl := by
  intro s t hst
  obtain ⟨-, -, ⟨-, rfl⟩ | ⟨-, hf⟩⟩ := step_cases hst
  · refine ⟨s.popMove.envMove_params _, State.released_of_envMove_baud (s := s.popMove), fun ⟨hs, ht⟩ =>
      State.reset_of_envMove_clears (s := s.popMove) hs ht, fun ⟨hs, ht⟩ => ?_⟩
    rw [State.envMove_initDone_eq_false (s := s.popMove) hs] at ht
    cases ht
  · refine ⟨hf.params_eq, fun hb => absurd hf.baud_eq hb, fun ⟨hs, ht⟩ => ?_, fun ⟨hs, ht⟩ => ?_⟩
    · rw [hf.initDone_mono hs] at ht
      cases ht
    · obtain ⟨hp, hr, rfl⟩ := hf.initAccepted_of_initDone hs ht
      exact ⟨hp, hr, rfl⟩

/-- Every step uses up one move of the script. -/
theorem step_script {s t : State} (h : step s = .next t) : t.script = s.script.tail := by
  obtain ⟨-, -, ⟨-, rfl⟩ | ⟨-, hf⟩⟩ := step_cases h
  · exact s.popMove.envMove_script _
  · exact hf.script_eq

/-- A step outside `INIT` accepts no `SinkInit`. -/
theorem step_countInits {s t : State} (h : step s = .next t) (hp : s.phase ≠ .init) :
    countInits t.sinkTrace = countInits s.sinkTrace := by
  obtain ⟨-, -, ⟨-, rfl⟩ | ⟨-, hf⟩⟩ := step_cases h
  · rw [State.envMove_sinkTrace, State.popMove_sinkTrace]
  · exact hf.countInits_eq hp

/-- With no reset to come the next move is none: an empty script only ever releases reset. -/
theorem State.NoReset.nextMove_ne {s : State} (h : s.NoReset) : s.nextMove ≠ .assertReset := by
  cases hs : s.script with
  | nil => by_cases hp : s.phase = .reset <;> simp [State.nextMove, hs, hp]
  | cons m ms =>
    rw [s.nextMove_cons m ms hs]
    rintro rfl
    exact h (by simp [hs])

/-- What a run without a reset keeps, for a given count of `SinkInit` events and a given rate: an initialised block in its
invariant, with no reset to come (R138). -/
structure State.Initialised (count : Nat) (rate : Rate) (s : State) : Prop where
  inv : s.Inv
  initDone : s.initDone = true
  noReset : s.NoReset
  count_eq : countInits s.sinkTrace = count
  baud_eq : s.baud = rate

/-- The invariant puts an initialised block in `IDLE` or `BUSY`, where no `SinkInit` is offered and a release of reset does
nothing. -/
theorem State.Initialised.step {count : Nat} {rate : Rate} {s t : State} (h : s.Initialised count rate)
    (hst : step s = .next t) : t.Initialised count rate := by
  obtain ⟨hreset, hinit⟩ : s.phase ≠ .reset ∧ s.phase ≠ .init := by
    obtain hp | hp := h.inv.initDone_iff.mp h.initDone <;> simp [hp]
  obtain ⟨-, hbaud, hclear, -⟩ := onlyResetWritesControl s t hst
  exact {
    inv := stepKeepsInvariant s t h.inv hst
    initDone := by
      by_contra ht
      obtain hm | ⟨hr, -⟩ := hclear ⟨h.initDone, by simpa using ht⟩
      · exact h.noReset.nextMove_ne hm
      · exact hreset hr
    noReset := fun hm => h.noReset (List.mem_of_mem_tail (step_script hst ▸ hm))
    count_eq := (step_countInits hst hinit).trans h.count_eq
    baud_eq := by
      by_contra hb
      exact hreset (hbaud (by rwa [h.baud_eq])).1 }

/-- Settles O44: every step of the run keeps the block initialised. -/
theorem noSecondSinkInit : Obligations.NoSecondSinkInit := by
  intro n s t hi hd hr hrun
  have ht : t.Initialised (countInits s.sinkTrace) s.baud :=
    run_induction (fun _ _ => State.Initialised.step) ⟨hi, hd, hr, rfl, rfl⟩ hrun
  exact ⟨ht.count_eq, ht.initDone, ht.noReset, ht.baud_eq⟩

/-- Settles O47: a move of the environment takes nothing and keeps every offer, and the framer needs `cmd_ready`. -/
theorem offersWait : Obligations.OffersWait := by
  intro s t hst hc
  obtain ⟨-, -, ⟨-, rfl⟩ | ⟨-, hf⟩⟩ := step_cases hst
  · exact ⟨s.popMove.envMove_taken _, s.popMove.offers_prefix_envMove _⟩
  · obtain ⟨ht, ho⟩ := hf.offers_of_not_cmdReady hc
    exact ⟨ht, ho ▸ List.prefix_rfl⟩

/-- Settles O54: in `RESET` the stream since the reset is empty, and the traces are those before it. -/
theorem streamStartsAtReset : Obligations.StreamStartsAtReset := by
  intro s t hm hst
  obtain ⟨-, -, ⟨-, rfl⟩ | ⟨hm', -⟩⟩ := step_cases hst
  · rw [hm]
    exact ⟨rfl, rfl, rfl⟩
  · rw [hm] at hm'
    cases hm'

/-- Settles O43: reset is released, then the sink accepts `SinkInit(40000)`. -/
theorem resetStateStartsUp : Obligations.ResetStateStartsUp :=
  ⟨rfl, rfl, rfl, rfl, State.reset.releaseReset.acceptInit, rfl, rfl, rfl, rfl, rfl⟩

end Sys2Proof.Machine
end

section
/-!
PROOFS. A step that runs an instruction, and what the instruction changes (10_state.md R22, R26, R27, R116, R130).
-/
namespace Sys2Proof.Machine

/-- Settles O7: the accepted word's outcome is its instruction's, which `exec` performs. -/
theorem stepRunsDecodedInstr : Obligations.StepRunsDecodedInstr := by
  intro s w rest i hv hr hm hc ho hw
  rw [step_accept hv hr hm hc ho, outcome_of_decode hw, exec_eq_perform]
  rfl

/-- Settles O26: `exec` performs the outcome, whose four shapes give the alternatives. -/
theorem instructionFrame : Obligations.InstructionFrame := by
  intro i s t h
  rw [exec_eq_perform] at h
  have ho := instrOutcome_ofInstr s.params i
  generalize instrOutcome s.params i = o at h ho
  cases h
  refine ⟨by simp, ?_⟩
  cases ho with
  | frame f r => exact .inl ⟨rfl, rfl, rfl, rfl⟩
  | reject c => exact .inr ⟨rfl, rfl, rfl, rfl, .inl ⟨rfl, .status c, rfl⟩⟩
  | answer b => exact .inr ⟨rfl, rfl, rfl, rfl, .inl ⟨rfl, .bool b, rfl⟩⟩
  | refuse => exact .inr ⟨rfl, rfl, rfl, rfl, .inr ⟨rfl, rfl⟩⟩

/-- Settles O48: the framer's plan in `BUSY`, by `IDX` and the sink. -/
theorem busyTransitions : Obligations.BusyTransitions := by
  intro s hv hr hp hm
  rw [step_framer hv hr hm]
  refine ⟨fun b hb hk => ?_, fun hi hk => ?_, fun hi => ?_⟩
  · rw [framerPlan_busy_byte (s := s.popMove) hp hb hk]
    rfl
  · rw [framerPlan_busy_stalled (s := s.popMove) hp hi hk]
    rfl
  · rw [framerPlan_busy_last (s := s.popMove) hp hi]
    exact ⟨_, rfl, rfl, rfl, rfl, rfl, rfl, hr, rfl, rfl, rfl⟩

end Sys2Proof.Machine
end

section
/-!
PROOFS. Whole commands, one and many: from its offer to its response a command changes what its word and the parameters say
and nothing else that lives on (10_state.md R26, R27; R46, R47, R50).
-/
namespace Sys2Proof.Machine

/-- A ready block runs an accepted word in the steps its outcome takes; a word that is answered or rejected is the case of no
bytes. -/
theorem run_wordSteps {s : State} {w : CmdWord} {rest : List CmdWord} (h : s.Ready w rest) (ha : Accepted s.params w) :
    ∃ r t, (outcome s.params w).response = some r ∧ run (wordSteps s.params w) s = .next t ∧
      s.AfterFrame w rest (wordBytes s.params w) r t := by
  cases ho : outcome s.params w with
  | refuse x => exact absurd ho (ha x)
  | reject c =>
    refine ⟨_, _, rfl, ?_, s.frame, s.idx, s.pend, s.freeCount, rfl⟩
    simp only [wordSteps, wordBytes, ho]
    rw [run_succ (step_of_reject h ho)]
    simp [run, State.afterAnswer, CmdOutcome.bytes]
  | answer b =>
    refine ⟨_, _, rfl, ?_, s.frame, s.idx, s.pend, s.freeCount, rfl⟩
    simp only [wordSteps, wordBytes, ho]
    rw [run_succ (step_of_answer h ho)]
    simp [run, State.afterAnswer, CmdOutcome.bytes]
  | frame f r =>
    obtain ⟨t, hrun, ht⟩ := emits_of_frame h ho
    refine ⟨r, t, rfl, ?_, ?_⟩
    · simpa only [wordSteps, ho, Nat.add_comm 1, Nat.add_assoc] using hrun
    · simpa only [wordBytes, ho, CmdOutcome.bytes] using ht

/-- Settles O30: both blocks run the word in the same steps, to the same bytes and the same response. -/
theorem noStateSurvivesACommand : Obligations.NoStateSurvivesACommand := by
  intro s t w rest rest' hs ht hp ha
  obtain ⟨r, s', hr, hrun, _, _, _, _, rfl⟩ := run_wordSteps hs ha
  obtain ⟨r', t', hr', hrun', _, _, _, _, rfl⟩ := run_wordSteps ht (hp ▸ ha)
  rw [← hp] at hr' hrun'
  obtain rfl : r = r' := Option.some_injective _ (hr.symm.trans hr')
  exact ⟨_, _, r, _, _, hrun, hrun', hs.idle, ht.idle, rfl, by rw [hp], rfl, rfl⟩

/-- The block is ready for whatever word comes: `State.Ready` without the offer. -/
structure State.Waiting (s : State) : Prop where
  valid : s.params.valid = true
  unmarked : s.refused = none
  quiet : s.script = []
  accepting : s.snkReady = true
  idle : s.phase = .idle
  initDone : s.initDone = true

/-- After the words `ws`, as `State.AfterFrame` says it of one: their frames and their responses, each once and in order, and
nothing else changes but the dead fields. -/
def State.AfterWords (s : State) (ws rest : List CmdWord) (t : State) : Prop :=
  ∃ fr ix pd n,
    t = { s with
      offers := rest
      taken := s.taken ++ ws
      sinkTrace := s.sinkTrace ++ (ws.flatMap (wordBytes s.params)).map SinkEvent.emit
      rspTrace := s.rspTrace ++ answers s.params (s.taken.length + 1) ws
      frame := fr
      idx := ix
      pend := pd
      freeCount := n }

section
variable {s t u : State} {w : CmdWord} {ws rest : List CmdWord} {r : Response}

theorem State.Waiting.ready (h : s.Waiting) (ho : s.offers = w :: rest) : s.Ready w rest :=
  ⟨h.valid, h.unmarked, h.quiet, h.accepting, h.idle, h.initDone, ho⟩

theorem State.Waiting.afterFrame {f : List Byte} (h : s.Waiting) (ht : s.AfterFrame w rest f r t) : t.Waiting := by
  obtain ⟨_, _, _, _, rfl⟩ := ht
  exact ⟨h.valid, h.unmarked, h.quiet, h.accepting, h.idle, h.initDone⟩

theorem State.AfterWords.nil (ho : s.offers = rest) : s.AfterWords [] rest s := by
  refine ⟨s.frame, s.idx, s.pend, s.freeCount, ?_⟩
  simp [answers, ← ho]

/-- One command and then the others. -/
theorem State.AfterWords.cons (hr : (outcome s.params w).response = some r)
    (hu : s.AfterFrame w (ws ++ rest) (wordBytes s.params w) r u) (ht : u.AfterWords ws rest t) :
    s.AfterWords (w :: ws) rest t := by
  obtain ⟨_, _, _, _, rfl⟩ := hu
  obtain ⟨fr, ix, pd, n, rfl⟩ := ht
  refine ⟨fr, ix, pd, n, ?_⟩
  simp [answers, hr]

end

/-- A block that waits runs any accepted words, one after the other. -/
theorem run_words (ws rest : List CmdWord) : ∀ s : State, s.Waiting → s.offers = ws ++ rest →
    (∀ w ∈ ws, Accepted s.params w) →
    ∃ t, run ((ws.map (wordSteps s.params)).sum) s = .next t ∧ s.AfterWords ws rest t := by
  induction ws with
  | nil => exact fun s _ ho _ => ⟨s, rfl, .nil ho⟩
  | cons w ws ih =>
    intro s h ho ha
    obtain ⟨r, u, hr, hrun, hu⟩ := run_wordSteps (h.ready ho) (ha w List.mem_cons_self)
    have hw := h.afterFrame hu
    obtain ⟨hp, hou⟩ : u.params = s.params ∧ u.offers = ws ++ rest := by
      obtain ⟨_, _, _, _, rfl⟩ := hu
      exact ⟨rfl, rfl⟩
    obtain ⟨t, hrun', ht⟩ := ih u hw hou fun v hv => hp ▸ ha v (List.mem_cons_of_mem w hv)
    refine ⟨t, ?_, .cons hr hu ht⟩
    rw [List.map_cons, List.sum_cons, run_add hrun, ← hp, hrun']

/-- Settles O56: by induction over the words, read off field by field. -/
theorem commandSequenceRuns : Obligations.CommandSequenceRuns := by
  intro s ws rest hv hr hq hk hp hd ho ha
  obtain ⟨t, hrun, _, _, _, _, rfl⟩ := run_words ws rest s ⟨hv, hr, hq, hk, hp, hd⟩ ho ha
  exact ⟨_, hrun, rfl, rfl, rfl, rfl, hp, hd, rfl, rfl, hr, hq, hk⟩

end Sys2Proof.Machine
end

section
/-!
PROOFS. The order of the stream since a reset (20_memory.md R46, R47, R50, R52): one lemma per transition of 10_state.md R26.
-/
namespace Sys2Proof.Machine

/-! ### The responses of a list of words (R9, R71) -/

theorem answers_append (p : Params) (n : Nat) (ws vs : List CmdWord) :
    answers p n (ws ++ vs) = answers p n ws ++ answers p (n + ws.length) vs := by
  induction ws generalizing n with
  | nil => simp [answers]
  | cons w ws ih => simp [answers, ih, Nat.add_assoc, Nat.add_comm 1]

/-- One more word: its response, if it gets one, comes last and with the word's number. -/
theorem answers_snoc (p : Params) (n : Nat) (ws : List CmdWord) (w : CmdWord) :
    answers p n (ws ++ [w]) =
      answers p n ws ++ ((outcome p w).response.map (Answered.mk (n + ws.length))).toList := by
  rw [answers_append, answers, answers, List.append_nil]

/-! ### The stream, phase by phase -/

section
variable {events : List SinkEvent} {words : List CmdWord} {responses : List Answered} {s : State}

/-- Until the sink accepts `SinkInit` nothing is added (R46, R138). -/
theorem streamSince_of_not_started (hp : s.phase = .reset ∨ s.phase = .init) :
    s.StreamSince events words responses ↔ s.sinkTrace = events ∧ s.taken = words ∧ s.rspTrace = responses := by
  obtain hp | hp := hp <;> simp only [State.StreamSince, hp]

theorem streamSince_of_idle (hp : s.phase = .idle) :
    s.StreamSince events words responses ↔
      ∃ ws, s.taken = words ++ ws ∧
        s.sinkTrace = events ++ .sinkInit s.baud :: (ws.flatMap (wordBytes s.params)).map SinkEvent.emit ∧
        s.rspTrace = responses ++ answers s.params (words.length + 1) ws := by
  simp only [State.StreamSince, hp]

theorem streamSince_of_busy (hp : s.phase = .busy) :
    s.StreamSince events words responses ↔
      ∃ ws w, s.taken = words ++ ws ++ [w] ∧ outcome s.params w = .frame s.frame s.pend ∧ s.idx ≤ s.frame.length ∧
        s.sinkTrace =
          events ++ .sinkInit s.baud :: (ws.flatMap (wordBytes s.params) ++ s.frame.take s.idx).map SinkEvent.emit ∧
        s.rspTrace = responses ++ answers s.params (words.length + 1) ws := by
  simp only [State.StreamSince, hp]

/-! ### One lemma per transition -/

/-- The stream reads neither `INIT_DONE`, the mark, the input ports, the offers nor the model's own fields. -/
theorem State.StreamSince.of_unread (h : s.StreamSince events words responses) (initDone : Bool)
    (refused : Option RefuseReason) (cfgBaud : Rate) (cfgBaudGiven : Bool) (offers : List CmdWord) (snkReady : Bool)
    (script : List Move) (freeCount : Nat) :
    ({ s with initDone, refused, cfgBaud, cfgBaudGiven, offers, snkReady, script, freeCount } : State).StreamSince
      events words responses := h

theorem State.StreamSince.popMove (h : s.StreamSince events words responses) :
    s.popMove.StreamSince events words responses := h.of_unread ..

/-- Releasing reset adds nothing, and it writes `BAUD` only where no `SinkInit` has been accepted (R136). -/
theorem State.StreamSince.releaseReset (h : s.StreamSince events words responses) :
    s.releaseReset.StreamSince events words responses := by
  by_cases hp : s.phase = .reset
  · rw [s.releaseReset_of_reset hp]
    exact (streamSince_of_not_started (.inl hp)).mp h
  · rwa [s.releaseReset_of_not_reset hp]

theorem State.StreamSince.envMove (h : s.StreamSince events words responses) {m : Move} (hm : m ≠ .assertReset) :
    (s.envMove m).StreamSince events words responses := by
  cases m with
  | framer => exact h
  | assertReset => exact absurd rfl hm
  | releaseReset => exact h.releaseReset
  | presentBaud | hostOffer | sinkReady => exact h.of_unread ..

/-- The stream begins with `SinkInit(BAUD)` and no word (R137). -/
theorem State.StreamSince.acceptInit (h : s.StreamSince events words responses) (hp : s.phase = .init) :
    s.acceptInit.StreamSince events words responses := by
  obtain ⟨he, hw, hr⟩ := (streamSince_of_not_started (.inr hp)).mp h
  exact (streamSince_of_idle rfl).mpr ⟨[], by simp [hw], by simp [he], by simp [hr, answers]⟩

/-- The byte accepted is the next one of the frame under way (R47). -/
theorem State.StreamSince.acceptByte (h : s.StreamSince events words responses) (hp : s.phase = .busy) {b : Byte}
    (hb : s.frame[s.idx]? = some b) : (s.acceptByte b).StreamSince events words responses := by
  obtain ⟨ws, w, hw, ho, -, he, hr⟩ := (streamSince_of_busy hp).mp h
  refine (streamSince_of_busy (s := s.acceptByte b) hp).mpr
    ⟨ws, w, hw, ho, (List.getElem?_eq_some_iff.mp hb).1, ?_, hr⟩
  simp [he, List.take_add_one, hb]

/-- A command is done: its frame, if it emits one, ends the sink trace, and its response, if it gets one, ends the response
trace (R46, R47, R50). -/
theorem streamSince_of_wordDone (hp : s.phase = .idle) {ws : List CmdWord} {w : CmdWord}
    (hw : s.taken = words ++ ws ++ [w])
    (he : s.sinkTrace = events ++ .sinkInit s.baud ::
      (ws.flatMap (wordBytes s.params) ++ (outcome s.params w).bytes).map SinkEvent.emit)
    (hr : s.rspTrace = responses ++ answers s.params (words.length + 1) ws ++
      ((outcome s.params w).response.map (Answered.mk s.taken.length)).toList) :
    s.StreamSince events words responses := by
  have hlen : s.taken.length = words.length + 1 + ws.length := by simp [hw]; omega
  refine (streamSince_of_idle hp).mpr ⟨ws ++ [w], by rw [hw, List.append_assoc], ?_, ?_⟩
  · rw [he, List.flatMap_append, List.flatMap_singleton, wordBytes]
  · rw [hr, answers_snoc, hlen, List.append_assoc]

/-- After its last byte the frame under way is whole, and its command is done (R50). -/
theorem State.StreamSince.deliver (h : s.StreamSince events words responses) (hp : s.phase = .busy)
    (hi : s.idx = s.frame.length) : s.deliver.StreamSince events words responses := by
  obtain ⟨ws, w, hw, ho, -, he, hr⟩ := (streamSince_of_busy hp).mp h
  refine streamSince_of_wordDone rfl hw ?_ ?_
  · simp [he, hi, ho, CmdOutcome.bytes]
  · simp [hr, ho, CmdOutcome.response]

/-- Accepting a word: its frame is under way with no byte out yet, or it has none and its command is done (R46, R47, R116). -/
theorem State.StreamSince.accept (h : s.StreamSince events words responses) (hp : s.phase = .idle) (w : CmdWord)
    (rest : List CmdWord) :
    ((s.takeWord w rest).perform (outcome s.params w)).StreamSince events words responses := by
  obtain ⟨ws, hw, he, hr⟩ := (streamSince_of_idle hp).mp h
  cases ho : outcome s.params w with
  | frame f r => exact (streamSince_of_busy rfl).mpr ⟨ws, w, by simp [hw], ho, Nat.zero_le _, by simp [he], hr⟩
  | reject | answer | refuse =>
    refine streamSince_of_wordDone hp (ws := ws) (w := w) (by simp [hw]) ?_ ?_
    · simp [he, ho, CmdOutcome.bytes]
    · simp [hr, ho, CmdOutcome.response]

theorem State.StreamSince.framerStep {t : State} (h : s.StreamSince events words responses) (hs : FramerStep s t) :
    t.StreamSince events words responses := by
  cases hs with
  | hold => exact h
  | initAccepted hp => exact h.acceptInit hp
  | byteAccepted hp _ b hb => exact h.acceptByte hp hb
  | delivered hp hi => exact h.deliver hp hi
  | accepted hp _ w rest => exact h.accept hp w rest

end

/-- Settles O55: by the agent that moves, and for the framer by its transition. -/
theorem stepKeepsStream : Obligations.StepKeepsStream := by
  intro events words responses s t h hm hst
  obtain ⟨-, -, ⟨-, rfl⟩ | ⟨-, hf⟩⟩ := step_cases hst
  · exact h.popMove.envMove hm
  · exact h.popMove.framerStep hf

end Sys2Proof.Machine
end

section
/-!
PROOFS. The bytes of a frame (20_memory.md R43, R44): what each command's frame is, and the bit 7 of its bytes.
-/
namespace Sys2Proof

theorem zext8_toNat {v : Nat} (h : v < 256) : (zext8 v).toNat = v := by
  rw [zext8, BitVec.toNat_ofNat]
  exact Nat.mod_eq_of_lt h

theorem split2_eq (p : Params) (hi lo : Nat) :
    split2 p hi lo = if p.splitOrder = .highFirst then [zext8 hi, zext8 lo] else [zext8 lo, zext8 hi] := by
  cases h : p.splitOrder <;> simp [split2, h]

theorem split2_msb {p : Params} {hi lo : Nat} (hhi : hi < 128) (hlo : lo < 128) : ∀ b ∈ split2 p hi lo, b.msb = false := by
  rw [split2_eq]
  split <;> simp [zext8_msb hhi, zext8_msb hlo]

theorem splitPosition8_msb (p : Params) (position : Nat) : ∀ b ∈ splitPosition8 p position, b.msb = false :=
  split2_msb ((bitsOf_lt _ 7 7).trans (by decide)) (bitsOf_lt _ 6 0)

theorem splitPositionAbs_msb (p : Params) (position : Nat) : ∀ b ∈ splitPositionAbs p position, b.msb = false :=
  split2_msb (bitsOf_lt _ 13 7) (bitsOf_lt _ 6 0)

/-- A bit at a position of R3 leaves bit 7 clear. -/
theorem bitAt_msb : ∀ pos ≤ 6, ∀ b, (bitAt pos b).msb = false := by decide

/-- The range field ends at position 6 or below, so it leaves bit 7 clear (R67). -/
theorem rangeField_msb : ∀ v < 32, ∀ lsb ≤ 2, (zext8 v <<< lsb).msb = false := by decide

/-- No field of the configure data byte reaches bit 7 (R3, R67). -/
theorem cfgByte_msb {p : Params} (hp : p.valid = true) (en fwd : Bool) (range : Nat) : (cfgByte p en fwd range).msb = false := by
  have hpos := (p.valid_iff.mp hp).positions
  have hen := hpos p.cfgEnPos (by simp [Params.cfgPositions])
  have hdir := hpos p.cfgDirPos (by simp [Params.cfgPositions])
  have hlsb := hpos (p.cfgRangeLsb + 4) (by simp [Params.cfgPositions])
  simp only [cfgByte, BitVec.msb_or, bitAt_msb _ hen, bitAt_msb _ hdir,
    rangeField_msb _ (bitsOf_lt range 4 0) p.cfgRangeLsb (by omega), Bool.or_false]

end Sys2Proof

namespace Sys2Proof.Machine

/-- What the frame of a command is, and what its checks have found of the operands (R88 to R92, R108, R109). -/
inductive FrameOf (p : Params) : Instr → List Byte → Prop where
  | configureServo {id : Nat} {en fwd : Bool} {range : Nat} (hid : id < 128) (hr : range ≤ 31) :
    FrameOf p (.configureServo id en fwd range) (sFrame p p.cmdSetParameters id [cfgByte p en fwd range])
  | setSpeed {id speed : Nat} (hid : id < 128) (hs : speed ≤ 127) :
    FrameOf p (.setSpeed id speed) (sFrame p p.cmdSetSpeed id [zext8 speed])
  | setPosition {id position : Nat} (hid : id < 128) (hv : position ≤ 255) :
    FrameOf p (.setPosition id position) (sFrame p p.cmdSetPosition8Bit id (splitPosition8 p position))
  | setPositionAbsolute {id position : Nat} (hid : id < 128) (hv : 500 ≤ position ∧ position ≤ 5500) :
    FrameOf p (.setPositionAbsolute id position) (sFrame p p.cmdSetPositionAbs id (splitPositionAbs p position))
  | setNeutral {id position : Nat} (hid : id < 128) (hv : 500 ≤ position ∧ position ≤ 5500) :
    FrameOf p (.setNeutral id position) (sFrame p p.cmdSetNeutral id (splitPositionAbs p position))
  | setServoNumberBaseNumber {base : Nat} (hb : base ≤ 16) :
    FrameOf p (.setServoNumberBaseNumber base) (bFrame p (zext8 base))
  | blinkServoNumberBaseNumber : FrameOf p .blinkServoNumberBaseNumber (bFrame p p.blinkCode)

section
variable {p : Params} {f : List Byte} {r : Response}

theorem servoChecked_eq_frame {id : Nat} {o : CmdOutcome} (h : servoChecked id o = .frame f r) : id < 128 ∧ o = .frame f r := by
  unfold servoChecked at h
  split at h
  · exact ⟨(servoIdValid_iff id).mp ‹_›, h⟩
  · cases h

/-- An absolute position that gets a frame is in its bounds (R90, R91). -/
theorem absOutcome_eq_frame {cmd : Byte} {id position : Nat} (h : absOutcome p cmd id position = .frame f r) :
    id < 128 ∧ (500 ≤ position ∧ position ≤ 5500) ∧ sFrame p cmd id (splitPositionAbs p position) = f := by
  obtain ⟨hid, h⟩ := servoChecked_eq_frame h
  split at h
  · cases h
    exact ⟨hid, (absValid_iff position).mp ‹_›, rfl⟩
  · cases h

/-- A command that emits has passed its checks, and its frame is the one its rule gives. -/
theorem frameOf_of_instrOutcome {i : Instr} (h : instrOutcome p i = .frame f r) : FrameOf p i f := by
  cases i with
  | configureServo id en fwd range =>
    obtain ⟨hid, h⟩ := servoChecked_eq_frame h
    split at h <;> cases h
    exact .configureServo hid ‹_›
  | setSpeed id speed =>
    obtain ⟨hid, h⟩ := servoChecked_eq_frame h
    split at h <;> cases h
    exact .setSpeed hid ‹_›
  | setPosition id position =>
    obtain ⟨hid, h⟩ := servoChecked_eq_frame h
    split at h <;> cases h
    exact .setPosition hid ‹_›
  | setPositionAbsolute id position =>
    obtain ⟨hid, hv, rfl⟩ := absOutcome_eq_frame h
    exact .setPositionAbsolute hid hv
  | setNeutral id position =>
    obtain ⟨hid, hv, rfl⟩ := absOutcome_eq_frame h
    exact .setNeutral hid hv
  | setServoNumberBaseNumber base =>
    simp only [instrOutcome, setServoNumberBaseNumberOutcome] at h
    split at h <;> cases h
    exact .setServoNumberBaseNumber (((baseValid_iff p base).mp ‹_›).trans p.baseMax.toNat_le)
  | blinkServoNumberBaseNumber => cases h; exact .blinkServoNumberBaseNumber
  | isValidServoId id => cases h

/-- A word's frame is the frame of the command it decodes to (R61). -/
theorem frameOf_of_outcome {w : CmdWord} (h : outcome p w = .frame f r) : ∃ i, decode w = .ok i ∧ FrameOf p i f := by
  cases hd : decode w with
  | ok i => exact ⟨i, rfl, frameOf_of_instrOutcome (outcome_of_decode hd ▸ h)⟩
  | error x => rw [outcome_of_decode_error hd] at h; cases h

end

/-- The shape of a frame under R44 and R68: `SYNC_BYTE`, then two, four or five bytes with bit 7 clear. -/
def SyncThenLow (p : Params) (f : List Byte) : Prop :=
  ∃ tail, f = p.syncByte :: tail ∧ (∀ b ∈ tail, b.msb = false) ∧ (tail.length = 2 ∨ tail.length = 4 ∨ tail.length = 5)

section
variable {p : Params} (hp : p.valid = true)
include hp

/-- A servo-targeted frame has the shape: its device byte and command byte by R3, its id by the check, and its data bytes. -/
theorem sFrame_syncThenLow {cmd : Byte} {id : Nat} {data : List Byte} (hc : cmd ∈ p.cmdBytes) (hid : id < 128)
    (hd : ∀ b ∈ data, b.msb = false) (hlen : data.length = 1 ∨ data.length = 2) : SyncThenLow p (sFrame p cmd id data) := by
  have hv := p.valid_iff.mp hp
  refine ⟨p.devServo :: cmd :: zext8 id :: data, rfl, ?_, by simp only [List.length_cons]; omega⟩
  simpa [hv.devServo, hv.cmds cmd hc, zext8_msb hid] using hd

theorem bFrame_syncThenLow {x : Byte} (hx : x.msb = false) : SyncThenLow p (bFrame p x) :=
  ⟨[p.devBase, x], rfl, by simp [(p.valid_iff.mp hp).devBase, hx], .inl rfl⟩

theorem FrameOf.syncThenLow {i : Instr} {f : List Byte} (h : FrameOf p i f) : SyncThenLow p f := by
  cases h with
  | configureServo hid =>
    exact sFrame_syncThenLow hp (by simp [Params.cmdBytes]) hid (by simp [cfgByte_msb hp]) (.inl rfl)
  | setSpeed hid hs =>
    exact sFrame_syncThenLow hp (by simp [Params.cmdBytes]) hid (by simp [zext8_msb (Nat.lt_succ_of_le hs)]) (.inl rfl)
  | setPosition hid =>
    exact sFrame_syncThenLow hp (by simp [Params.cmdBytes]) hid (splitPosition8_msb p _) (.inr (split2_length ..))
  | setPositionAbsolute hid =>
    exact sFrame_syncThenLow hp (by simp [Params.cmdBytes]) hid (splitPositionAbs_msb p _) (.inr (split2_length ..))
  | setNeutral hid =>
    exact sFrame_syncThenLow hp (by simp [Params.cmdBytes]) hid (splitPositionAbs_msb p _) (.inr (split2_length ..))
  | setServoNumberBaseNumber hb => exact bFrame_syncThenLow hp (zext8_msb (by omega))
  | blinkServoNumberBaseNumber => exact bFrame_syncThenLow hp (p.valid_iff.mp hp).blink

end

/-- Settles O31: `SYNC_BYTE` has bit 7 set by R3, and no other byte of the frame of any command has. -/
theorem frameShape : Obligations.FrameShape := by
  intro p w f r hp h
  obtain ⟨i, -, hf⟩ := frameOf_of_outcome h
  obtain ⟨tail, rfl, hlow, hlen⟩ := hf.syncThenLow hp
  refine ⟨by simp only [List.length_cons]; omega, rfl, fun k b hb => ?_⟩
  cases k with
  | zero =>
    obtain rfl : p.syncByte = b := by simpa using hb
    simp [(p.valid_iff.mp hp).sync]
  | succ k => simp [hlow b (List.mem_of_getElem? hb)]

/-- Settles O35: the parts are `position / 128` and `position % 128`, and up to 255 the one bit of `setPosition`'s high part
is the whole quotient. -/
theorem splitLosesNoBit : Obligations.SplitLosesNoBit := by
  intro p position hv
  have hhi : bitsOf position 13 7 = position / 128 := Nat.mod_eq_of_lt (by omega)
  have hlo : bitsOf position 6 0 = position % 128 := by simp [bitsOf]
  refine ⟨zext8 (position / 128), zext8 (position % 128), ?_⟩
  rw [zext8_toNat (by omega), zext8_toNat (by omega)]
  refine ⟨by omega, by omega, by omega, ?_, fun h8 => ?_⟩
  · rw [splitPositionAbs, split2_eq, hhi, hlo]
  · have hbit : bitsOf position 7 7 = position / 128 := Nat.mod_eq_of_lt (by omega)
    exact ⟨by rw [splitPosition8, splitPositionAbs, hhi, hbit], by omega⟩

end Sys2Proof.Machine
end

section
/-!
PROOFS. How a step extends the traces (20_memory.md R41, R48, R50, R52): no move of the environment writes one, and a
transition of the framer extends one of the two at most.
-/
namespace Sys2Proof.Machine

@[simp] theorem State.envMove_rspTrace (s : State) (m : Move) : (s.envMove m).rspTrace = s.rspTrace := by
  cases m with
  | releaseReset => exact s.releaseReset_rspTrace
  | _ => rfl

/-- Performing an outcome delivers at most one response (R71, R116). -/
theorem State.perform_rspTrace (s : State) (o : CmdOutcome) :
    (s.perform o).rspTrace = s.rspTrace ∨ ∃ a, (s.perform o).rspTrace = s.rspTrace ++ [a] := by
  cases o with
  | reject c => exact .inr ⟨_, rfl⟩
  | answer t => exact .inr ⟨_, rfl⟩
  | refuse x => exact .inl rfl
  | frame f r => exact .inl rfl

/-- In `BUSY` the one transition of the framer that responds is the delivery after the last byte (R50). -/
theorem FramerStep.delivered_of_rspTrace_ne {s t : State} (h : FramerStep s t) (hp : s.phase = .busy)
    (hr : t.rspTrace ≠ s.rspTrace) : s.idx = s.frame.length ∧ t = s.deliver := by
  cases h with
  | delivered _ hi => exact ⟨hi, rfl⟩
  | accepted hidle => rw [hp] at hidle; cases hidle
  | _ => exact absurd rfl hr

/-- Settles O49: the delivery needs `IDX` at the end of `FRAME`, and the invariant has the bytes below `IDX` in the trace. -/
theorem responseAfterLastByte : Obligations.ResponseAfterLastByte := by
  intro s t h hp hst hr
  obtain ⟨-, -, ⟨-, rfl⟩ | ⟨-, hf⟩⟩ := step_cases hst
  · exact absurd (s.popMove.envMove_rspTrace _) hr
  · obtain ⟨hi, rfl⟩ : s.idx = s.frame.length ∧ t = s.popMove.deliver := hf.delivered_of_rspTrace_ne hp hr
    have hsent := h.busy_sent hp
    rw [hi, List.take_length] at hsent
    exact ⟨hi, hsent, rfl⟩

/-- Settles O50: by the agent that moves, and for the framer by its transition. -/
theorem tracesOnlyGrow : Obligations.TracesOnlyGrow := by
  intro s t hst
  obtain ⟨-, -, ⟨-, rfl⟩ | ⟨-, hf⟩⟩ := step_cases hst
  · simp
  · cases hf with
    | hold => exact ⟨.inl rfl, .inl rfl, .inl rfl, .inl rfl⟩
    | initAccepted => exact ⟨.inr ⟨_, rfl⟩, .inl rfl, .inl rfl, .inr rfl⟩
    | byteAccepted => exact ⟨.inr ⟨_, rfl⟩, .inl rfl, .inl rfl, .inr rfl⟩
    | delivered => exact ⟨.inl rfl, .inr ⟨_, rfl⟩, .inl rfl, .inl rfl⟩
    | accepted _ _ w rest ho =>
      have hsink : ((s.popMove.takeWord w rest).perform (outcome s.params w)).sinkTrace = s.sinkTrace := by simp
      exact ⟨.inl hsink, (s.popMove.takeWord w rest).perform_rspTrace _, .inr ⟨w, by simp, by simpa using ho⟩, .inl hsink⟩

end Sys2Proof.Machine
end

section
/-!
PROOFS. The command word (30_encoding.md R56 to R61): what a word that is read is read as, which row it selects, and why a
word is refused.
-/
namespace Sys2Proof

/-- The `OP` of each operation (R58). -/
def Instr.op : Instr → Nat
  | .configureServo .. => 0x0
  | .setSpeed .. => 0x1
  | .setPosition .. => 0x3
  | .setPositionAbsolute .. => 0x4
  | .setNeutral .. => 0x5
  | .setServoNumberBaseNumber .. => 0x8
  | .blinkServoNumberBaseNumber => 0x9
  | .isValidServoId .. => 0xA

@[simp] theorem opOf_rowOf (i : Instr) : opOf (rowOf i).pattern = i.op := by
  cases i <;> simp [rowOf, opOf, bitsOf, Instr.op]

/-- The word of a well-formed instruction carries its operation's `OP` and its operands, and zero in every other field. -/
theorem decode_encode {i : Instr} (h : i.wf = true) : decode (encode i) = .ok i := by
  cases i with
  | configureServo id en fwd range =>
    obtain ⟨hop, hrsv, ha, hen, hfwd, hv⟩ := Laws.FieldsRead.configureServo id en fwd range h
    simp [decode_configureServo (hop.trans (opOf_rowOf _)), hrsv, ha, hen, hfwd, hv]
  | setSpeed id speed =>
    obtain ⟨hop, -, ha, hv, hz⟩ := Laws.FieldsRead.setSpeed id speed h
    simp [decode_setSpeed (hop.trans (opOf_rowOf _)), ha, hv, hz]
  | setPosition id position =>
    obtain ⟨hop, -, ha, hv, hz⟩ := Laws.FieldsRead.setPosition id position h
    simp [decode_setPosition (hop.trans (opOf_rowOf _)), ha, hv, hz]
  | setPositionAbsolute id position =>
    obtain ⟨hop, -, ha, hv, hz⟩ := Laws.FieldsRead.setPositionAbsolute id position h
    simp [decode_setPositionAbsolute (hop.trans (opOf_rowOf _)), ha, hv, hz]
  | setNeutral id position =>
    obtain ⟨hop, -, ha, hv, hz⟩ := Laws.FieldsRead.setNeutral id position h
    simp [decode_setNeutral (hop.trans (opOf_rowOf _)), ha, hv, hz]
  | setServoNumberBaseNumber base =>
    obtain ⟨hop, -, ha, hv, hz⟩ := Laws.FieldsRead.setServoNumberBaseNumber base h
    simp [decode_setServoNumberBaseNumber (hop.trans (opOf_rowOf _)), ha, hv, hz]
  | blinkServoNumberBaseNumber =>
    obtain ⟨hop, -, ha, hv, hz⟩ := Laws.FieldsRead.blinkServoNumberBaseNumber h
    simp [decode_blinkServoNumberBaseNumber (hop.trans (opOf_rowOf _)), ha, hv, hz]
  | isValidServoId id =>
    obtain ⟨hop, -, ha, hv, hz⟩ := Laws.FieldsRead.isValidServoId id h
    simp [decode_isValidServoId (hop.trans (opOf_rowOf _)), ha, hv, hz]

/-- Settles O1: by the operation, each of whose fields reads back. -/
theorem decodeEncodeAgree : Obligations.DecodeEncodeAgree := fun _ h => decode_encode h

/-! ### What a word is read as -/

/-- What a word is read as: the instruction its `OP` selects, with the fields R57 gives it, every other field being zero. -/
inductive ReadAs (w : CmdWord) : Instr → Prop where
  | configureServo (hop : opOf w = 0x0) (hrsv : rsvOf w = 0) :
    ReadAs w (.configureServo (argA w) (enOf w) (fwdOf w) (argV w))
  | setSpeed (hop : opOf w = 0x1) (hz : flagsOf w = 0) : ReadAs w (.setSpeed (argA w) (argV w))
  | setPosition (hop : opOf w = 0x3) (hz : flagsOf w = 0) : ReadAs w (.setPosition (argA w) (argV w))
  | setPositionAbsolute (hop : opOf w = 0x4) (hz : flagsOf w = 0) : ReadAs w (.setPositionAbsolute (argA w) (argV w))
  | setNeutral (hop : opOf w = 0x5) (hz : flagsOf w = 0) : ReadAs w (.setNeutral (argA w) (argV w))
  | setServoNumberBaseNumber (hop : opOf w = 0x8) (hz : flagsOf w = 0) (hv : argV w = 0) :
    ReadAs w (.setServoNumberBaseNumber (argA w))
  | blinkServoNumberBaseNumber (hop : opOf w = 0x9) (hz : flagsOf w = 0) (ha : argA w = 0) (hv : argV w = 0) :
    ReadAs w .blinkServoNumberBaseNumber
  | isValidServoId (hop : opOf w = 0xA) (hz : flagsOf w = 0) (hv : argV w = 0) : ReadAs w (.isValidServoId (argA w))

section
variable {w : CmdWord} {i : Instr}

theorem ReadAs.op_eq (h : ReadAs w i) : opOf w = i.op := by cases h <;> assumption

/-- No operation's `OP` is a reserved one (R58, R59). -/
theorem Instr.op_not_reserved (i : Instr) : i.op ∉ reservedOps := by cases i <;> simp [Instr.op, reservedOps]

/-- What a word is read as fits the word's fields. -/
theorem ReadAs.wf (h : ReadAs w i) : i.wf = true := by
  have ha := (fitsArg_iff _).mpr (argA_lt w)
  have hv := (fitsArg_iff _).mpr (argV_lt w)
  cases h <;> simp only [Instr.wf, ha, hv, Bool.and_self]

/-- What a word is read as is written as that word: the fields it does not carry are zero. -/
theorem ReadAs.encode_eq (h : ReadAs w i) : encode i = w := by
  have hw := mkWord_fields w
  cases h with
  | configureServo hop hrsv => rwa [hop, ← flagDigit_of_rsv_zero w hrsv] at hw
  | setSpeed hop hz => rwa [hop, hz] at hw
  | setPosition hop hz => rwa [hop, hz] at hw
  | setPositionAbsolute hop hz => rwa [hop, hz] at hw
  | setNeutral hop hz => rwa [hop, hz] at hw
  | setServoNumberBaseNumber hop hz hv => rwa [hop, hz, hv] at hw
  | blinkServoNumberBaseNumber hop hz ha hv => rwa [hop, hz, ha, hv] at hw
  | isValidServoId hop hz hv => rwa [hop, hz, hv] at hw

/-- What a word is read as is what the decoder answers. -/
theorem ReadAs.decode_eq (h : ReadAs w i) : decode w = .ok i := h.encode_eq ▸ decode_encode h.wf

/-- The three answers of the decoder (R61). -/
inductive Decodes (w : CmdWord) : Except RefuseReason Instr → Prop where
  /-- The word is read. -/
  | read (i : Instr) (h : ReadAs w i) : Decodes w (.ok i)
  /-- Its `OP` is reserved (R59). -/
  | reserved (hop : opOf w ∈ reservedOps) : Decodes w (.error .reservedOp)
  /-- Its `OP` is an operation's, and an unused field is nonzero (R60). -/
  | unused (hop : opOf w ∉ reservedOps) : Decodes w (.error .nonzeroUnusedField)

/-- An operation's word is read where its condition on the unused fields holds, and refused where it does not. -/
theorem decodes_whenUnusedZero {b : Bool} (hop : opOf w = i.op) (h : b = true → ReadAs w i) :
    Decodes w (whenUnusedZero b i) := by
  cases b with
  | true => exact .read i (h rfl)
  | false => exact .unused (hop ▸ i.op_not_reserved)

theorem decodes (w : CmdWord) : Decodes w (decode w) := by
  rcases opOf_cases w with h | h | h | h | h | h | h | h | h
  · rw [decode_configureServo h]
    exact decodes_whenUnusedZero h fun hz => .configureServo h (by simpa using hz)
  · rw [decode_setSpeed h]
    exact decodes_whenUnusedZero h fun hz => .setSpeed h (by simpa using hz)
  · rw [decode_setPosition h]
    exact decodes_whenUnusedZero h fun hz => .setPosition h (by simpa using hz)
  · rw [decode_setPositionAbsolute h]
    exact decodes_whenUnusedZero h fun hz => .setPositionAbsolute h (by simpa using hz)
  · rw [decode_setNeutral h]
    exact decodes_whenUnusedZero h fun hz => .setNeutral h (by simpa using hz)
  · rw [decode_setServoNumberBaseNumber h]
    refine decodes_whenUnusedZero h fun hz => ?_
    simp only [Bool.and_eq_true, beq_iff_eq] at hz
    exact .setServoNumberBaseNumber h hz.1 hz.2
  · rw [decode_blinkServoNumberBaseNumber h]
    refine decodes_whenUnusedZero h fun hz => ?_
    simp only [Bool.and_eq_true, beq_iff_eq] at hz
    exact .blinkServoNumberBaseNumber h hz.1.1 hz.1.2 hz.2
  · rw [decode_isValidServoId h]
    refine decodes_whenUnusedZero h fun hz => ?_
    simp only [Bool.and_eq_true, beq_iff_eq] at hz
    exact .isValidServoId h hz.1 hz.2
  · rw [decode_reserved h]
    exact .reserved h

theorem decode_eq_ok_iff : decode w = .ok i ↔ ReadAs w i := by
  refine ⟨fun h => ?_, ReadAs.decode_eq⟩
  have hd := decodes w
  rw [h] at hd
  cases hd with
  | read _ hi => exact hi

/-- Settles O2: the fields of the word are those of the instruction read, and the others are zero. -/
theorem encodeDecodeAgree : Obligations.EncodeDecodeAgree := fun _ _ h =>
  have hi := decode_eq_ok_iff.mp h
  ⟨hi.wf, hi.encode_eq⟩

/-! ### The rows of the command map -/

/-- Every row of the command map is an operation's (R58). -/
theorem exists_rowOf_of_mem {r : Row} (h : r ∈ commandMap) : ∃ i, rowOf i = r := by
  simp only [commandMap, List.mem_cons, List.not_mem_nil, or_false] at h
  rcases h with rfl | rfl | rfl | rfl | rfl | rfl | rfl | rfl <;> exact ⟨_, rfl⟩

/-- A word that is read selects the row of what it is read as. -/
theorem ReadAs.selects (h : ReadAs w i) : (rowOf i).selects w = true := by
  obtain ⟨h0, h1, h3, h4, h5, h8, h9, hA⟩ := selects_rowOf w
  cases h with
  | configureServo hop hrsv => exact h0.mpr ⟨hop, hrsv⟩
  | setSpeed hop hz => exact h1.mpr ⟨hop, hz⟩
  | setPosition hop hz => exact h3.mpr ⟨hop, hz⟩
  | setPositionAbsolute hop hz => exact h4.mpr ⟨hop, hz⟩
  | setNeutral hop hz => exact h5.mpr ⟨hop, hz⟩
  | setServoNumberBaseNumber hop hz hv => exact h8.mpr ⟨hop, hz, hv⟩
  | blinkServoNumberBaseNumber hop hz ha hv => exact h9.mpr ⟨hop, hz, ha, hv⟩
  | isValidServoId hop hz hv => exact hA.mpr ⟨hop, hz, hv⟩

/-- A word that selects an operation's row is read as an instruction of that operation. -/
theorem exists_readAs_of_selects {j : Instr} (h : (rowOf j).selects w = true) : ∃ i, ReadAs w i ∧ rowOf i = rowOf j := by
  obtain ⟨h0, h1, h3, h4, h5, h8, h9, hA⟩ := selects_rowOf w
  cases j with
  | configureServo => obtain ⟨hop, hrsv⟩ := h0.mp h; exact ⟨_, .configureServo hop hrsv, rfl⟩
  | setSpeed => obtain ⟨hop, hz⟩ := h1.mp h; exact ⟨_, .setSpeed hop hz, rfl⟩
  | setPosition => obtain ⟨hop, hz⟩ := h3.mp h; exact ⟨_, .setPosition hop hz, rfl⟩
  | setPositionAbsolute => obtain ⟨hop, hz⟩ := h4.mp h; exact ⟨_, .setPositionAbsolute hop hz, rfl⟩
  | setNeutral => obtain ⟨hop, hz⟩ := h5.mp h; exact ⟨_, .setNeutral hop hz, rfl⟩
  | setServoNumberBaseNumber => obtain ⟨hop, hz, hv⟩ := h8.mp h; exact ⟨_, .setServoNumberBaseNumber hop hz hv, rfl⟩
  | blinkServoNumberBaseNumber =>
    obtain ⟨hop, hz, ha, hv⟩ := h9.mp h
    exact ⟨_, .blinkServoNumberBaseNumber hop hz ha hv, rfl⟩
  | isValidServoId => obtain ⟨hop, hz, hv⟩ := hA.mp h; exact ⟨_, .isValidServoId hop hz hv, rfl⟩

/-- A row of the command map is selected by the words read as its operation, and by no other (R58, R61). -/
theorem selects_iff_of_mem {r : Row} (hr : r ∈ commandMap) : r.selects w = true ↔ ∃ i, decode w = .ok i ∧ r = rowOf i := by
  constructor
  · intro h
    obtain ⟨j, rfl⟩ := exists_rowOf_of_mem hr
    obtain ⟨i, hi, hij⟩ := exists_readAs_of_selects h
    exact ⟨i, hi.decode_eq, hij.symm⟩
  · rintro ⟨i, hi, rfl⟩
    exact (decode_eq_ok_iff.mp hi).selects

/-- A refused word selects no row (R59, R60). -/
theorem selects_eq_false_of_error {x : RefuseReason} (h : decode w = .error x) : ∀ r ∈ commandMap, r.selects w = false := by
  intro r hr
  rw [Bool.eq_false_iff, ne_eq, selects_iff_of_mem hr, h]
  simp

end

end Sys2Proof

namespace Sys2Proof.Machine

/-- Settles O3: by the decoder's answer. -/
theorem decodingIsTotal : Obligations.DecodingIsTotal := by
  intro w
  have hd := decodes w
  generalize ha : decode w = answer at hd
  cases hd with
  | read i hi => exact .inl ⟨i, rfl, hi.op_eq ▸ i.op_not_reserved, fun r hr => by simp [selects_iff_of_mem hr, ha]⟩
  | reserved hop => exact .inr (.inl ⟨rfl, hop, selects_eq_false_of_error ha, fun _ => outcome_of_decode_error ha⟩)
  | unused hop => exact .inr (.inr ⟨rfl, hop, selects_eq_false_of_error ha, fun _ => outcome_of_decode_error ha⟩)

/-- A ready block takes a word the decoder refuses, sets the mark and stops (R59, R60). -/
theorem step_of_decode_error {s : State} {w : CmdWord} {rest : List CmdWord} {x : RefuseReason} (h : s.Ready w rest)
    (hd : decode w = .error x) :
    step s = .next (s.afterMark w rest x) ∧ step (s.afterMark w rest x) = .refused (.refuse x) :=
  ⟨step_of_refuse h (outcome_of_decode_error hd), step_of_marked h.valid rfl⟩

/-- Settles O4: the decoder refuses a reserved `OP` whatever the other fields hold. -/
theorem reservedOpSetsMark : Obligations.ReservedOpSetsMark :=
  fun _ _ _ h hop => step_of_decode_error h (decode_reserved hop)

/-- A zero digit `E` has both flags and `RSV` zero (R56). -/
theorem fields_of_flagsOf_zero {w : CmdWord} (h : flagsOf w = 0) : enOf w = false ∧ fwdOf w = false ∧ rsvOf w = 0 := by
  simp only [flagsOf, bitsOf] at h
  simp only [enOf, fwdOf, rsvOf, bitsOf, beq_eq_false_iff_ne]
  omega

/-- Settles O5: the word's `OP` is no reserved one, and reading it as its operation needs the field to be zero. -/
theorem nonzeroUnusedFieldSetsMark : Obligations.NonzeroUnusedFieldSetsMark := by
  intro s w rest h hu
  have hd : decode w = .error .nonzeroUnusedField := by
    have hd := decodes w
    generalize decode w = answer at hd
    cases hd with
    | unused => rfl
    | reserved hop => simp only [reservedOps, List.mem_cons, List.not_mem_nil, or_false] at hop hu; omega
    | read i hi =>
      have hf := fields_of_flagsOf_zero (w := w)
      cases hi with
      | configureServo hop hrsv => simp [hop, hrsv] at hu
      | setSpeed hop hz => simp [hop, hf hz] at hu
      | setPosition hop hz => simp [hop, hf hz] at hu
      | setPositionAbsolute hop hz => simp [hop, hf hz] at hu
      | setNeutral hop hz => simp [hop, hf hz] at hu
      | setServoNumberBaseNumber hop hz hv => simp [hop, hf hz, hv] at hu
      | blinkServoNumberBaseNumber hop hz ha hv => simp [hop, hf hz, ha, hv] at hu
      | isValidServoId hop hz hv => simp [hop, hf hz, hv] at hu
  exact ⟨selects_eq_false_of_error hd, step_of_decode_error h hd⟩
end Sys2Proof.Machine
end

section
/-!
PROOFS. The configure data byte and the formats of frames (30_encoding.md R62 to R70).
-/
namespace Sys2Proof

/-! ### The configure data byte (R67) -/

theorem bitAt_getLsbD {pos : Nat} (h : pos < 8) (b : Bool) (k : Nat) : (bitAt pos b).getLsbD k = (decide (k = pos) && b) := by
  cases b with
  | false => simp [bitAt]
  | true =>
    simp only [bitAt, BitVec.getLsbD_shiftLeft, Bool.toNat_true, BitVec.getLsbD_one, Bool.and_true]
    rw [Bool.eq_iff_iff]
    simp only [Bool.and_eq_true, Bool.not_eq_true', decide_eq_true_eq, decide_eq_false_iff_not]
    omega

/-- The range field holds bits 4 to 0 of the range, from its lowest position on. -/
theorem rangeField_getLsbD {lsb : Nat} (h : lsb + 4 < 8) (range k : Nat) :
    (zext8 (bitsOf range 4 0) <<< lsb).getLsbD k = (decide (lsb ≤ k ∧ k < lsb + 5) && range.testBit (k - lsb)) := by
  rw [BitVec.getLsbD_shiftLeft, zext8, BitVec.getLsbD_ofNat, bitsOf, Nat.pow_zero, Nat.div_one, Nat.testBit_mod_two_pow]
  by_cases hk : lsb ≤ k ∧ k < lsb + 5
  · simp [hk, show k < 8 by omega, show k - lsb < 8 by omega, show k - lsb < 5 by omega]
  · simp only [hk, decide_false, Bool.false_and, Bool.and_eq_false_iff, Bool.not_eq_false', decide_eq_false_iff_not,
      decide_eq_true_eq]
    omega

/-- The fields of the configure data byte stand below bit 7 and do not overlap (R3). -/
theorem cfgFields_apart {p : Params} (hp : p.valid = true) :
    p.cfgEnPos ≤ 6 ∧ p.cfgDirPos ≤ 6 ∧ p.cfgRangeLsb + 4 ≤ 6 ∧ p.cfgEnPos ≠ p.cfgDirPos ∧
      ¬ (p.cfgRangeLsb ≤ p.cfgEnPos ∧ p.cfgEnPos < p.cfgRangeLsb + 5) ∧
      ¬ (p.cfgRangeLsb ≤ p.cfgDirPos ∧ p.cfgDirPos < p.cfgRangeLsb + 5) := by
  have hv := p.valid_iff.mp hp
  have hpos := hv.positions
  have hdist := hv.positions_distinct
  simp only [Params.cfgPositions, List.forall_mem_cons] at hpos
  simp only [Params.cfgPositions, List.nodup_cons, List.mem_cons, not_or] at hdist
  omega

/-- Bit `k` of the configure data byte: a bit of each field that stands at position `k`. -/
theorem cfgByte_getLsbD {p : Params} (hp : p.valid = true) (en fwd : Bool) (range k : Nat) :
    (cfgByte p en fwd range).getLsbD k =
      (decide (k = p.cfgEnPos) && (if en then p.enOnBit else !p.enOnBit) ||
        decide (k = p.cfgDirPos) && (if fwd then p.fwdDirBit else !p.fwdDirBit) ||
        decide (p.cfgRangeLsb ≤ k ∧ k < p.cfgRangeLsb + 5) && range.testBit (k - p.cfgRangeLsb)) := by
  obtain ⟨hen, hdir, hlsb, -, -, -⟩ := cfgFields_apart hp
  rw [cfgByte, BitVec.getLsbD_or, BitVec.getLsbD_or, bitAt_getLsbD (by omega), bitAt_getLsbD (by omega),
    rangeField_getLsbD (by omega)]

/-- Settles O36: the positions of R3 are distinct and at most 6, so at each of them one field's bit stands alone. -/
theorem configureByteBits : Obligations.ConfigureByteBits := by
  rintro p en fwd range hp b rfl
  obtain ⟨hen, hdir, hlsb, hne, henRange, hdirRange⟩ := cfgFields_apart hp
  have hbit := cfgByte_getLsbD hp en fwd range
  refine ⟨?_, ?_, ?_, fun k hk => ?_, fun k hk => ?_, ?_⟩
  · exact (BitVec.msb_eq_getLsbD_last _).symm.trans (cfgByte_msb hp en fwd range)
  · simp [hbit, hne, henRange]
  · simp [hbit, hne.symm, hdirRange]
  · simp [hbit, hk, show p.cfgRangeLsb + k ≠ p.cfgEnPos by omega, show p.cfgRangeLsb + k ≠ p.cfgDirPos by omega]
  · simp only [Params.cfgPositions, List.mem_cons, List.not_mem_nil, or_false, not_or] at hk
    simp [hbit, hk, show ¬ (p.cfgRangeLsb ≤ k ∧ k < p.cfgRangeLsb + 5) by omega]
  · rintro rfl
    cases en <;> cases fwd <;> simp [cfgByte, Params.rb0, bitAt, zext8]

end Sys2Proof

namespace Sys2Proof.Machine

/-! ### The formats (R62 to R70) -/

/-- Settles O32: a frame is the one its command's rule gives, and no rule gives `isValidServoId` one. -/
theorem frameLengths : Obligations.FrameLengths := by
  intro p i f r h
  cases frameOf_of_instrOutcome h with
  | configureServo => rfl
  | setSpeed => rfl
  | setPosition => simp [sFrame, splitPosition8, split2_length]
  | setPositionAbsolute => simp [sFrame, splitPositionAbs, split2_length]
  | setNeutral => simp [sFrame, splitPositionAbs, split2_length]
  | setServoNumberBaseNumber => rfl
  | blinkServoNumberBaseNumber => rfl

/-- The formats of R62: format S with one data byte or with two, by the command byte (R65, R66), and format B. -/
inductive Format (p : Params) : List Byte → Prop where
  | oneData {cmd : Byte} {id : Nat} {data : List Byte} (hc : cmd = p.cmdSetParameters ∨ cmd = p.cmdSetSpeed)
    (hid : id < 128) (hd : data.length = 1) : Format p (sFrame p cmd id data)
  | twoData {cmd : Byte} {id : Nat} {data : List Byte}
    (hc : cmd = p.cmdSetPosition8Bit ∨ cmd = p.cmdSetPositionAbs ∨ cmd = p.cmdSetNeutral)
    (hid : id < 128) (hd : data.length = 2) : Format p (sFrame p cmd id data)
  | broadcast (x : Byte) : Format p (bFrame p x)

section
variable {p : Params}

theorem FrameOf.format {i : Instr} {f : List Byte} (h : FrameOf p i f) : Format p f := by
  cases h with
  | configureServo hid => exact .oneData (.inl rfl) hid rfl
  | setSpeed hid => exact .oneData (.inr rfl) hid rfl
  | setPosition hid => exact .twoData (.inl rfl) hid (split2_length ..)
  | setPositionAbsolute hid => exact .twoData (.inr (.inl rfl)) hid (split2_length ..)
  | setNeutral hid => exact .twoData (.inr (.inr rfl)) hid (split2_length ..)
  | setServoNumberBaseNumber => exact .broadcast _
  | blinkServoNumberBaseNumber => exact .broadcast _

variable (hp : p.valid = true)
include hp

theorem headerLength_bFrame (x : Byte) : headerLength p (bFrame p x) = some 3 := by
  simp [headerLength, bFrame, (p.valid_iff.mp hp).sync]

/-- After `DEV_SERVO` the command byte says the length (R69). -/
theorem headerLength_sFrame (cmd : Byte) (id : Nat) (data : List Byte) :
    headerLength p (sFrame p cmd id data) =
      if cmd = p.cmdSetParameters ∨ cmd = p.cmdSetSpeed then some 5
      else if cmd = p.cmdSetPosition8Bit ∨ cmd = p.cmdSetPositionAbs ∨ cmd = p.cmdSetNeutral then some 6
      else none := by
  have hv := p.valid_iff.mp hp
  simp [headerLength, sFrame, hv.sync, hv.devices]

/-- The command bytes of the two lengths of format S are distinct (R3). -/
theorem cmd_one_ne_two {c d : Byte} (hc : c = p.cmdSetParameters ∨ c = p.cmdSetSpeed)
    (hd : d = p.cmdSetPosition8Bit ∨ d = p.cmdSetPositionAbs ∨ d = p.cmdSetNeutral) : c ≠ d := by
  have hapart : [p.cmdSetParameters, p.cmdSetSpeed].Disjoint [p.cmdSetPosition8Bit, p.cmdSetPositionAbs, p.cmdSetNeutral] :=
    List.disjoint_of_nodup_append (p.valid_iff.mp hp).cmds_distinct
  rintro rfl
  exact hapart (by simpa using hc) (by simpa using hd)

theorem Format.headerLength_eq {f : List Byte} (h : Format p f) : headerLength p f = some f.length := by
  cases h with
  | broadcast x => exact headerLength_bFrame hp x
  | oneData hc _ hd => rw [headerLength_sFrame hp, if_pos hc]; simp [sFrame, hd]
  | twoData hc _ hd =>
    rw [headerLength_sFrame hp, if_neg fun h => cmd_one_ne_two hp h hc rfl, if_pos hc]
    simp [sFrame, hd]

end

/-- Settles O33: in either format the first three bytes are the sync byte, the device byte and the byte that says the rest. -/
theorem receiverFindsLength : Obligations.ReceiverFindsLength := by
  intro p w f r hp h
  obtain ⟨i, -, hf⟩ := frameOf_of_outcome h
  exact hf.format.headerLength_eq hp

/-- The command bytes of RB0 (R70). -/
theorem rb0_cmdBytes : ∀ c ∈ Params.rb0.cmdBytes, c ≠ 0x02#8 ∧ c.toNat < 0x06 := by decide

/-- Settles O34: by the format, which bounds the id and names the command byte. -/
theorem onlyKnownCommandBytes : Obligations.OnlyKnownCommandBytes := by
  intro p w f r hp h
  obtain ⟨i, -, hf⟩ := frameOf_of_outcome h
  cases hf.format with
  | broadcast x => exact .inr ⟨x, rfl⟩
  | @oneData cmd _ _ hc hid hd =>
    have hmem : cmd ∈ p.cmdBytes := by rcases hc with rfl | rfl <;> simp [Params.cmdBytes]
    exact .inl ⟨_, _, _, rfl, hmem, (zext8_toNat (by omega)).trans_lt hid, .inl hd, fun h => rb0_cmdBytes _ (h ▸ hmem)⟩
  | @twoData cmd _ _ hc hid hd =>
    have hmem : cmd ∈ p.cmdBytes := by rcases hc with rfl | rfl | rfl <;> simp [Params.cmdBytes]
    exact .inl ⟨_, _, _, rfl, hmem, (zext8_toNat (by omega)).trans_lt hid, .inr hd, fun h => rb0_cmdBytes _ (h ▸ hmem)⟩

end Sys2Proof.Machine
end

section
/-!
PROOFS. Fixed words and the ports (30_encoding.md R55 to R58, R71, R72).
-/
namespace Sys2Proof

/-- Settles O6: the decoder, run on the written words. -/
theorem writtenWordsDecode : Obligations.WrittenWordsDecode := by
  unfold Obligations.WrittenWordsDecode
  decide

/-- `0b11` is the kind of no response (R71). -/
theorem Response.kind_ne_three (r : Response) : r.kind ≠ 0b11#2 := by cases r <;> simp [Response.kind]

/-- Settles O38: the kinds by the response's constructor, the data on the fixed values. -/
theorem responseEncoding : Obligations.ResponseEncoding :=
  ⟨Response.kind_ne_three, fun _ => rfl, fun _ => rfl, rfl, by decide⟩

end Sys2Proof

namespace Sys2Proof.Machine

/-- Settles O51: each output belongs to one phase, and none to `RESET`. -/
theorem portsExclusive : Obligations.PortsExclusive := by
  intro s
  cases hp : s.phase <;> simp [State.snkInitValid, State.snkByteValid, State.cmdReady, State.rst, hp]

end Sys2Proof.Machine
end

section
/-!
PROOFS. The assembler (30_encoding.md R73 to R76): it produces only words of well-formed instructions, and reads back the
canonical line of every word.
-/
namespace Sys2Proof.Asm

/-! ### What a line assembles to (R73, R74) -/

/-- A reading in two parts that succeeds has succeeded in both. -/
theorem bind_eq_ok {ε α β : Type} {x : Except ε α} {g : α → Except ε β} {b : β} (h : x >>= g = .ok b) :
    ∃ a, x = .ok a ∧ g a = .ok b := by
  cases x with
  | ok a => exact ⟨a, rfl, h⟩
  | error e => cases h

/-- An integer operand that is read fits its field (R73). -/
theorem fitsArg_of_intOperand {text : List Char} {n : Nat} (h : intOperand text = .ok n) : fitsArg n = true := by
  unfold intOperand at h
  split at h
  · split at h
    · cases h; exact decide_eq_true ‹_›
    · cases h
  · cases h

theorem intInt_eq_ok {make : Nat → Nat → Instr} {ops : List (List Char)} {i : Instr} (h : intInt make ops = .ok i) :
    ∃ a b, fitsArg a = true ∧ fitsArg b = true ∧ make a b = i := by
  unfold intInt at h
  split at h
  · obtain ⟨a, ha, h⟩ := bind_eq_ok h
    obtain ⟨b, hb, h⟩ := bind_eq_ok h
    cases h
    exact ⟨a, b, fitsArg_of_intOperand ha, fitsArg_of_intOperand hb, rfl⟩
  · cases h

theorem oneInt_eq_ok {make : Nat → Instr} {ops : List (List Char)} {i : Instr} (h : oneInt make ops = .ok i) :
    ∃ a, fitsArg a = true ∧ make a = i := by
  unfold oneInt at h
  split at h
  · obtain ⟨a, ha, h⟩ := bind_eq_ok h
    cases h
    exact ⟨a, fitsArg_of_intOperand ha, rfl⟩
  · cases h

/-- The instruction of a full form is well formed: each of its integer operands has been checked. -/
theorem fullForm_wf {m : Mnemonic} {ops : List (List Char)} {i : Instr} (h : fullForm m ops = .ok i) : i.wf = true := by
  cases m with
  | configureServo =>
    match ops, h with
    | [_, _, _, _], h =>
      obtain ⟨a, ha, h⟩ := bind_eq_ok h
      obtain ⟨en, -, h⟩ := bind_eq_ok h
      obtain ⟨fwd, -, h⟩ := bind_eq_ok h
      obtain ⟨b, hb, h⟩ := bind_eq_ok h
      cases h
      simp [Instr.wf, fitsArg_of_intOperand ha, fitsArg_of_intOperand hb]
    | [], h | [_], h | [_, _], h | [_, _, _], h | _ :: _ :: _ :: _ :: _ :: _, h => cases h
  | setSpeed => obtain ⟨a, b, ha, hb, rfl⟩ := intInt_eq_ok h; simp [Instr.wf, ha, hb]
  | setPosition => obtain ⟨a, b, ha, hb, rfl⟩ := intInt_eq_ok h; simp [Instr.wf, ha, hb]
  | setPositionAbsolute => obtain ⟨a, b, ha, hb, rfl⟩ := intInt_eq_ok h; simp [Instr.wf, ha, hb]
  | setNeutral => obtain ⟨a, b, ha, hb, rfl⟩ := intInt_eq_ok h; simp [Instr.wf, ha, hb]
  | setServoNumberBaseNumber => obtain ⟨a, ha, rfl⟩ := oneInt_eq_ok h; exact ha
  | isValidServoId => obtain ⟨a, ha, rfl⟩ := oneInt_eq_ok h; exact ha
  | blinkServoNumberBaseNumber =>
    cases ops with
    | nil => cases h; rfl
    | cons => cases h

theorem parseInstr_wf {line : List Char} {i : Instr} (h : parseInstr line = .ok i) : i.wf = true := by
  unfold parseInstr at h
  split at h
  · exact fullForm_wf h
  · cases h

/-- Settles O58: a line assembles to the word of the well-formed instruction it names, which decodes to that instruction. -/
theorem assembledWordsDecode : Obligations.AssembledWordsDecode := by
  intro line w h
  unfold assembleLine at h
  cases hp : parseInstr line with
  | ok i => rw [hp] at h; cases h; exact ⟨i, rfl, decode_encode (parseInstr_wf hp)⟩
  | error e => rw [hp] at h; cases h

/-- Settles O59: each short form is read with its defaults. -/
theorem assemblerDefaults : Obligations.AssemblerDefaults := by
  unfold Obligations.AssemblerDefaults
  decide

/-! ### The canonical line, taken apart again (R73, R76) -/

/-- A printed operand or mnemonic: plain characters, at least one. -/
def Token (l : List Char) : Prop := l ≠ [] ∧ ∀ c ∈ l, Plain c

/-- A text whose last character is no blank. -/
def EndsPlain (l : List Char) : Prop := ∃ m c, l = m ++ [c] ∧ isBlank c = false

theorem EndsPlain.append {l : List Char} (h : EndsPlain l) (k : List Char) : EndsPlain (k ++ l) := by
  obtain ⟨m, c, rfl, hc⟩ := h
  exact ⟨k ++ m, c, by simp, hc⟩

theorem Token.endsPlain {l : List Char} (h : Token l) : EndsPlain l :=
  ⟨l.dropLast, l.getLast h.1, (List.dropLast_append_getLast h.1).symm, (h.2 _ (List.getLast_mem h.1)).1⟩

/-- Trimming leaves a text alone that begins with a token and ends in no blank. -/
theorem trim_token_append {t m : List Char} (ht : Token t) (h : EndsPlain (t ++ m)) : trim (t ++ m) = t ++ m := by
  apply trim_of_ends
  · obtain ⟨c, cs, rfl⟩ := List.exists_cons_of_ne_nil ht.1
    intro d hd
    cases hd
    exact (ht.2 c (by simp)).1
  · obtain ⟨k, c, hk, hc⟩ := h
    rw [hk]
    simpa using hc

section
variable {t m : List Char} (ht : Token t) (hm : EndsPlain m)
include ht hm

/-- A mnemonic ends at the first blank. -/
theorem headText_token : headText (t ++ ' ' :: m) = t := by
  have hline : EndsPlain (t ++ ' ' :: m) := by simpa using hm.append (t ++ [' '])
  rw [headText, trim_token_append ht hline, List.takeWhile_append_of_pos fun c hc => by simp [(ht.2 c hc).1]]
  simp [isBlank]

theorem tailText_token : tailText (t ++ ' ' :: m) = ' ' :: m := by
  have hline : EndsPlain (t ++ ' ' :: m) := by simpa using hm.append (t ++ [' '])
  rw [tailText, trim_token_append ht hline, List.dropWhile_append_of_pos fun c hc => by simp [(ht.2 c hc).1]]
  simp [isBlank]

end

theorem printOperands_eq_append (a : List Char) (ops : List (List Char)) : ∃ m, printOperands (a :: ops) = a ++ m := by
  cases ops with
  | nil => exact ⟨[], (List.append_nil a).symm⟩
  | cons b rest => exact ⟨_, List.append_assoc ..⟩

theorem printOperands_endsPlain : ∀ ops : List (List Char), ops ≠ [] → (∀ o ∈ ops, Token o) → EndsPlain (printOperands ops)
  | [], h, _ => absurd rfl h
  | [a], _, h => (h a (by simp)).endsPlain
  | a :: b :: rest, _, h =>
    (printOperands_endsPlain (b :: rest) (by simp) fun o ho => h o (List.mem_cons_of_mem _ ho)).append _

/-- Printed operands are read back as they were printed. -/
theorem operandsOf_printOperands {ops : List (List Char)} (hne : ops ≠ []) (h : ∀ o ∈ ops, Token o) :
    operandsOf (' ' :: printOperands ops) = ops := by
  have hsome : trim (printOperands ops) ≠ [] := by
    obtain ⟨a, rest, rfl⟩ := List.exists_cons_of_ne_nil hne
    have hends := printOperands_endsPlain _ hne h
    obtain ⟨m, hm⟩ := printOperands_eq_append a rest
    have ha := h a (by simp)
    rw [hm] at hends ⊢
    rw [trim_token_append ha hends]
    simp [ha.1]
  rw [operandsOf, trim_space, if_neg (by simpa using hsome), map_trim_splitCommas_space,
    map_trim_printOperands ops hne fun o ho => (h o ho).2]

theorem text_token (m : Mnemonic) : Token m.text.toList := by
  cases m <;> simp [Token, Mnemonic.text, Plain, isBlank]

theorem mnemonicOf_text (m : Mnemonic) : mnemonicOf m.text.toList = some m := by cases m <;> decide

theorem printInt_token (n : Nat) : Token (printInt n) := ⟨decDigits_ne_nil 4 n, fun c hc => (decDigits_chars 5 n c hc).1⟩

theorem printFlag_token (b : Bool) : Token (printFlag b) := by
  cases b <;> simp [Token, printFlag, Plain, isBlank]

theorem operandTexts_token (i : Instr) : ∀ o ∈ operandTexts i, Token o := by
  cases i <;> simp [operandTexts, printInt_token, printFlag_token]

theorem intInt_printInt (make : Nat → Nat → Instr) {a b : Nat} (ha : fitsArg a = true) (hb : fitsArg b = true) :
    intInt make [printInt a, printInt b] = .ok (make a b) := by
  simp only [intInt, intOperand_printInt ((fitsArg_iff a).mp ha), intOperand_printInt ((fitsArg_iff b).mp hb)]
  rfl

theorem oneInt_printInt (make : Nat → Instr) {a : Nat} (ha : fitsArg a = true) : oneInt make [printInt a] = .ok (make a) := by
  simp only [oneInt, intOperand_printInt ((fitsArg_iff a).mp ha)]
  rfl

/-- The full form of a well-formed instruction takes no default, and its operands read back. -/
theorem fullForm_operandTexts {i : Instr} (h : i.wf = true) :
    fullForm (mnemonicOfInstr i) (withDefaults (mnemonicOfInstr i) (operandTexts i)) = .ok i := by
  cases i <;> simp only [Instr.wf, Bool.and_eq_true] at h
  case configureServo id en fwd range =>
    simp only [mnemonicOfInstr, operandTexts, withDefaults, fullForm, flagOperand_printFlag,
      intOperand_printInt ((fitsArg_iff id).mp h.1), intOperand_printInt ((fitsArg_iff range).mp h.2)]
    rfl
  case setSpeed => exact intInt_printInt .setSpeed h.1 h.2
  case setPosition => exact intInt_printInt .setPosition h.1 h.2
  case setPositionAbsolute => exact intInt_printInt .setPositionAbsolute h.1 h.2
  case setNeutral => exact intInt_printInt .setNeutral h.1 h.2
  case setServoNumberBaseNumber => exact oneInt_printInt .setServoNumberBaseNumber h
  case blinkServoNumberBaseNumber => rfl
  case isValidServoId => exact oneInt_printInt .isValidServoId h

theorem printInstr_of_operands {i : Instr} (h : operandTexts i ≠ []) :
    printInstr i = (mnemonicOfInstr i).text.toList ++ ' ' :: printOperands (operandTexts i) := by
  unfold printInstr
  split
  · exact absurd ‹_› h
  · rfl

/-- The canonical line of a well-formed instruction names it (R76). -/
theorem parseInstr_printInstr {i : Instr} (h : i.wf = true) : parseInstr (printInstr i) = .ok i := by
  by_cases hops : operandTexts i = []
  · cases i with
    | blinkServoNumberBaseNumber => decide
    | _ => cases hops
  · have ht := text_token (mnemonicOfInstr i)
    have hm := printOperands_endsPlain _ hops (operandTexts_token i)
    rw [printInstr_of_operands hops, parseInstr, headText_token ht hm, tailText_token ht hm, mnemonicOf_text]
    simp only [operandsOf_printOperands hops (operandTexts_token i)]
    exact fullForm_operandTexts h

/-- A line of the assembly language is read as one: `.word` is no mnemonic. -/
theorem readLine_of_assembleLine {line : List Char} {w : CmdWord} (h : assembleLine line = .ok w) : readLine line = .ok w := by
  have hhead : headText line ≠ ".word".toList := by
    intro hd
    rw [assembleLine, parseInstr, hd, show mnemonicOf ".word".toList = none by decide] at h
    cases h
  rw [readLine, if_neg hhead, h]

theorem fixedDigits_plain (count : Nat) : ∀ n, ∀ c ∈ fixedDigits 16 count n, Plain c := by
  induction count with
  | zero => intro n c hc; cases hc
  | succ k ih =>
    intro n c hc
    rw [fixedDigits, List.mem_append, List.mem_singleton] at hc
    rcases hc with hc | rfl
    · exact ih _ c hc
    · obtain ⟨hb, hcomma, -⟩ := digitChar_plain (n % 16) (Nat.mod_lt _ (by decide))
      exact ⟨hb, hcomma⟩

/-- The directive of a word reads back (R76). -/
theorem readLine_word (w : CmdWord) : readLine (".word 0x".toList ++ fixedDigits 16 10 w.toNat) = .ok w := by
  have hx : ∀ c ∈ "0x".toList, Plain c := by simp [Plain, isBlank]
  have hoperand : Token ("0x".toList ++ fixedDigits 16 10 w.toNat) :=
    ⟨by simp, fun c hc => (List.mem_append.mp hc).elim (hx c) (fixedDigits_plain 10 _ c)⟩
  have hword : Token ".word".toList := by simp [Token, Plain, isBlank]
  rw [show ".word 0x".toList ++ fixedDigits 16 10 w.toNat =
      ".word".toList ++ ' ' :: ("0x".toList ++ fixedDigits 16 10 w.toNat) by simp,
    readLine, headText_token hword hoperand.endsPlain, if_pos rfl, tailText_token hword hoperand.endsPlain, trim_space,
    trim_plain hoperand.2]
  show wordOperand ('0' :: 'x' :: fixedDigits 16 10 w.toNat) = .ok w
  simp only [wordOperand, fixedDigits_length, if_true, readDigits_fixedDigits 10 w.toNat w.isLt, BitVec.ofNat_toNat,
    BitVec.setWidth_eq]

/-- Settles O57: the canonical line is the full form of the instruction a word is read as, or the directive of a refused
word. -/
theorem printedWordReadsBack : Obligations.PrintedWordReadsBack := by
  intro w
  cases hd : decode w with
  | ok i =>
    have hi := decode_eq_ok_iff.mp hd
    have hline : assembleLine (printWord w) = .ok w := by
      rw [printWord, hd, assembleLine]
      simp only [parseInstr_printInstr hi.wf]
      exact congrArg _ hi.encode_eq
    exact ⟨readLine_of_assembleLine hline, fun _ _ => hline⟩
  | error x =>
    refine ⟨?_, fun _ h => by cases h⟩
    rw [printWord, hd]
    exact readLine_word w

end Sys2Proof.Asm
end

section
/-!
PROOFS. The five servo-targeted commands (40_servo_commands.md R85 to R92): the outcome of each, check by check, and what a
step, a whole command or `exec` makes of it.
-/
namespace Sys2Proof

/-! ### The data bytes of a position (R87, R93) -/

theorem bitsOf_six_zero (position : Nat) : bitsOf position 6 0 = position % 128 := by simp [bitsOf]

/-- Up to 255 the one bit of `setPosition`'s high part is the whole quotient. -/
theorem splitPosition8_eq (p : Params) {position : Nat} (h : position ≤ 255) :
    splitPosition8 p position =
      if p.splitOrder = .highFirst then [BitVec.ofNat 8 (position / 128), BitVec.ofNat 8 (position % 128)]
      else [BitVec.ofNat 8 (position % 128), BitVec.ofNat 8 (position / 128)] := by
  have hhi : bitsOf position 7 7 = position / 128 := Nat.mod_eq_of_lt (by omega)
  rw [splitPosition8, split2_eq, hhi, bitsOf_six_zero]
  rfl

/-- Up to 5500 the seven bits of the high part are the whole quotient. -/
theorem splitPositionAbs_eq (p : Params) {position : Nat} (h : position ≤ 5500) :
    splitPositionAbs p position =
      if p.splitOrder = .highFirst then [BitVec.ofNat 8 (position / 128), BitVec.ofNat 8 (position % 128)]
      else [BitVec.ofNat 8 (position % 128), BitVec.ofNat 8 (position / 128)] := by
  have hhi : bitsOf position 13 7 = position / 128 := Nat.mod_eq_of_lt (by omega)
  rw [splitPositionAbs, split2_eq, hhi, bitsOf_six_zero]
  rfl

/-! ### The fields of the word, as bits of it (R56) -/

/-- Bits of field `V` are the same bits of the word. -/
theorem bitsOf_argV (w : CmdWord) {hi : Nat} (h : hi ≤ 15) (lo : Nat) : bitsOf (argV w) hi lo = bitsOf w.toNat hi lo := by
  apply Nat.eq_of_testBit_eq
  intro k
  simp only [argV, bitsOf, Nat.testBit_mod_two_pow, Nat.testBit_div_two_pow]
  by_cases hk : k < hi + 1 - lo
  · simp [hk, show k + lo < 16 by omega]
  · simp [hk]

/-- The data bytes of an absolute position, from the bits of the word. -/
theorem splitPositionAbs_argV (p : Params) (w : CmdWord) :
    splitPositionAbs p (argV w) =
      if p.splitOrder = .highFirst then [BitVec.ofNat 8 (bitsOf w.toNat 13 7), BitVec.ofNat 8 (bitsOf w.toNat 6 0)]
      else [BitVec.ofNat 8 (bitsOf w.toNat 6 0), BitVec.ofNat 8 (bitsOf w.toNat 13 7)] := by
  rw [splitPositionAbs, split2_eq, bitsOf_argV w (by decide), bitsOf_argV w (by decide)]
  rfl

/-- The data bytes of an 8-bit position, from the bits of the word. -/
theorem splitPosition8_argV (p : Params) (w : CmdWord) :
    splitPosition8 p (argV w) =
      if p.splitOrder = .highFirst then [BitVec.ofNat 8 (bitsOf w.toNat 7 7), BitVec.ofNat 8 (bitsOf w.toNat 6 0)]
      else [BitVec.ofNat 8 (bitsOf w.toNat 6 0), BitVec.ofNat 8 (bitsOf w.toNat 7 7)] := by
  rw [splitPosition8, split2_eq, bitsOf_argV w (by decide), bitsOf_argV w (by decide)]
  rfl

theorem enOf_eq_getLsbD (w : CmdWord) : enOf w = w.getLsbD 35 := (Nat.testBit_eq_decide_div_mod_eq ..).symm

theorem fwdOf_eq_getLsbD (w : CmdWord) : fwdOf w = w.getLsbD 34 := (Nat.testBit_eq_decide_div_mod_eq ..).symm

/-- The mask of R58 that checks `OP` and digit `E`. -/
theorem op_and_flags_of_masked {w m : CmdWord} {op : Nat} (hm : m.toNat = op * 2 ^ 36) (h : w &&& 0xFF00000000#40 = m) :
    opOf w = op ∧ flagsOf w = 0 :=
  (selects_plain (n := "") hm w).mp (beq_iff_eq.mpr h)

/-- The mask of R58 that checks `OP` and `RSV`. -/
theorem op_and_rsv_of_masked {w m : CmdWord} {op : Nat} (hm : m.toNat = op * 2 ^ 36) (h : w &&& 0xF300000000#40 = m) :
    opOf w = op ∧ rsvOf w = 0 :=
  (selects_flags (n := "") hm w).mp (beq_iff_eq.mpr h)

/-- The servo a servo-targeted command addresses (R85). The query and the broadcast commands address none. -/
def Instr.target : Instr → Option Nat
  | .configureServo id .. => some id
  | .setSpeed id _ => some id
  | .setPosition id _ => some id
  | .setPositionAbsolute id _ => some id
  | .setNeutral id _ => some id
  | .setServoNumberBaseNumber _ => none
  | .blinkServoNumberBaseNumber => none
  | .isValidServoId _ => none

end Sys2Proof

namespace Sys2Proof.Machine

/-! ### The outcome, check by check (R85 to R92) -/

section
variable {p : Params} {id : Nat}

theorem servoChecked_of_valid (h : id < 128) (next : CmdOutcome) : servoChecked id next = next :=
  if_pos ((servoIdValid_iff id).mpr h)

theorem servoChecked_of_invalid (h : 128 ≤ id) (next : CmdOutcome) : servoChecked id next = .reject (-2) :=
  if_neg fun hv => Nat.not_lt.mpr h ((servoIdValid_iff id).mp hv)

/-- A servo-targeted command checks its id before anything else (R85). -/
theorem instrOutcome_of_invalid_target {i : Instr} (ht : i.target = some id) (h : 128 ≤ id) :
    instrOutcome p i = .reject (-2) := by
  cases i with
  | configureServo | setSpeed | setPosition | setPositionAbsolute | setNeutral =>
    cases ht
    exact servoChecked_of_invalid h _
  | setServoNumberBaseNumber | blinkServoNumberBaseNumber | isValidServoId => cases ht

variable (hid : id < 128)
include hid

theorem configureServoOutcome_of_range_le (en fwd : Bool) {range : Nat} (h : range ≤ 31) :
    configureServoOutcome p id en fwd range = servoFrame p p.cmdSetParameters id [cfgByte p en fwd range] :=
  (servoChecked_of_valid hid _).trans (if_pos h)

theorem configureServoOutcome_of_range_gt (en fwd : Bool) {range : Nat} (h : 31 < range) :
    configureServoOutcome p id en fwd range = .reject (-3) :=
  (servoChecked_of_valid hid _).trans (if_neg (Nat.not_le.mpr h))

theorem setSpeedOutcome_of_speed_le {speed : Nat} (h : speed ≤ 127) :
    setSpeedOutcome p id speed = servoFrame p p.cmdSetSpeed id [zext8 speed] :=
  (servoChecked_of_valid hid _).trans (if_pos h)

theorem setSpeedOutcome_of_speed_gt {speed : Nat} (h : 127 < speed) :
    setSpeedOutcome p id speed = .refuse .operandOutOfContract :=
  (servoChecked_of_valid hid _).trans (if_neg (Nat.not_le.mpr h))

theorem setPositionOutcome_of_position_le {position : Nat} (h : position ≤ 255) :
    setPositionOutcome p id position = servoFrame p p.cmdSetPosition8Bit id (splitPosition8 p position) :=
  (servoChecked_of_valid hid _).trans (if_pos h)

theorem setPositionOutcome_of_position_gt {position : Nat} (h : 255 < position) :
    setPositionOutcome p id position = .refuse .operandOutOfContract :=
  (servoChecked_of_valid hid _).trans (if_neg (Nat.not_le.mpr h))

theorem absOutcome_of_position_inside (cmd : Byte) {position : Nat} (h : 500 ≤ position ∧ position ≤ 5500) :
    absOutcome p cmd id position = servoFrame p cmd id (splitPositionAbs p position) :=
  (servoChecked_of_valid hid _).trans (if_pos ((absValid_iff position).mpr h))

theorem absOutcome_of_position_outside (cmd : Byte) {position : Nat} (h : position < 500 ∨ 5500 < position) :
    absOutcome p cmd id position = .reject (-3) := by
  have hn : ¬ absValid position = true := by rw [absValid_iff]; omega
  exact (servoChecked_of_valid hid _).trans (if_neg hn)

end

theorem setServoNumberBaseNumberOutcome_of_base_gt {p : Params} {base : Nat} (h : p.baseMax.toNat < base) :
    setServoNumberBaseNumberOutcome p base = .reject p.errBaseNumber.toInt :=
  if_neg fun hb => Nat.not_le.mpr h ((baseValid_iff p base).mp hb)

/-! ### From the word to the response (R88 to R92) -/

section
variable {s : State} {w : CmdWord} {rest : List CmdWord}

/-- The outcome of a word is that of the instruction it is read as. -/
theorem outcome_of_readAs {i : Instr} (h : ReadAs w i) (p : Params) : outcome p w = instrOutcome p i :=
  outcome_of_decode h.decode_eq

/-- A ready block rejects a word that addresses an invalid servo (R85). -/
theorem step_of_invalid_target {i : Instr} {id : Nat} (h : s.Ready w rest) (hi : ReadAs w i) (ht : i.target = some id)
    (hid : 128 ≤ id) : step s = .next (s.afterAnswer w rest (.status (-2))) :=
  step_of_reject h ((outcome_of_readAs hi _).trans (instrOutcome_of_invalid_target ht hid))

/-- What R90 and R91 say alike of their commands, which differ in the command byte. -/
theorem step_or_emits_of_absOutcome {i : Instr} {cmd : Byte} (h : s.Ready w rest) (hi : ReadAs w i)
    (ht : i.target = some (argA w)) (ho : instrOutcome s.params i = absOutcome s.params cmd (argA w) (argV w)) :
    if 128 ≤ argA w then step s = .next (s.afterAnswer w rest (.status (-2)))
    else if argV w < 500 ∨ 5500 < argV w then step s = .next (s.afterAnswer w rest (.status (-3)))
    else s.Emits w rest (sFrame s.params cmd (argA w) (splitPositionAbs s.params (argV w))) (.status 0) := by
  have ho := (outcome_of_readAs hi s.params).trans ho
  split_ifs with hid hv
  · exact step_of_invalid_target h hi ht hid
  · exact step_of_reject h (ho.trans (absOutcome_of_position_outside (by omega) cmd hv))
  · exact emits_of_frame h (ho.trans (absOutcome_of_position_inside (by omega) cmd (by omega)))

end

/-- Settles O9: by the id, then by the range. -/
theorem configureServoCommand : Obligations.ConfigureServoCommand := by
  intro s w rest h hw
  obtain ⟨hop, hrsv⟩ := op_and_rsv_of_masked (op := 0x0) (by decide) hw
  have hi := ReadAs.configureServo hop hrsv
  have ho := outcome_of_readAs hi s.params
  rw [← enOf_eq_getLsbD, ← fwdOf_eq_getLsbD]
  split_ifs with hid hr
  · exact step_of_invalid_target h hi rfl hid
  · exact step_of_reject h (ho.trans (configureServoOutcome_of_range_gt (Nat.lt_of_not_le hid) _ _ hr))
  · exact emits_of_frame h (ho.trans (configureServoOutcome_of_range_le (Nat.lt_of_not_le hid) _ _ (Nat.le_of_not_lt hr)))

/-- Settles O10: by the id, then by the speed. -/
theorem setSpeedCommand : Obligations.SetSpeedCommand := by
  intro s w rest h hw
  obtain ⟨hop, hz⟩ := op_and_flags_of_masked (op := 0x1) (by decide) hw
  have hi := ReadAs.setSpeed hop hz
  have ho := outcome_of_readAs hi s.params
  split_ifs with hid hv
  · exact step_of_invalid_target h hi rfl hid
  · exact step_of_refuse h (ho.trans (setSpeedOutcome_of_speed_gt (Nat.lt_of_not_le hid) hv))
  · exact emits_of_frame h (ho.trans (setSpeedOutcome_of_speed_le (Nat.lt_of_not_le hid) (Nat.le_of_not_lt hv)))

/-- Settles O11: by the id, then by the position. -/
theorem setPositionCommand : Obligations.SetPositionCommand := by
  intro s w rest h hw
  obtain ⟨hop, hz⟩ := op_and_flags_of_masked (op := 0x3) (by decide) hw
  have hi := ReadAs.setPosition hop hz
  have ho := outcome_of_readAs hi s.params
  rw [← splitPosition8_argV]
  split_ifs with hid hv
  · exact step_of_invalid_target h hi rfl hid
  · exact step_of_refuse h (ho.trans (setPositionOutcome_of_position_gt (Nat.lt_of_not_le hid) hv))
  · exact emits_of_frame h (ho.trans (setPositionOutcome_of_position_le (Nat.lt_of_not_le hid) (Nat.le_of_not_lt hv)))

/-- Settles O12: the command of an absolute position with the command byte of R90. -/
theorem setPositionAbsoluteCommand : Obligations.SetPositionAbsoluteCommand := by
  intro s w rest h hw
  obtain ⟨hop, hz⟩ := op_and_flags_of_masked (op := 0x4) (by decide) hw
  rw [← splitPositionAbs_argV]
  exact step_or_emits_of_absOutcome h (.setPositionAbsolute hop hz) rfl rfl

/-- Settles O13: the command of an absolute position with the command byte of R91. -/
theorem setNeutralCommand : Obligations.SetNeutralCommand := by
  intro s w rest h hw
  obtain ⟨hop, hz⟩ := op_and_flags_of_masked (op := 0x5) (by decide) hw
  rw [← splitPositionAbs_argV]
  exact step_or_emits_of_absOutcome h (.setNeutral hop hz) rfl rfl

/-! ### What `exec` answers, by the outcome -/

section
variable {s : State} {i : Instr}

theorem exec_of_reject {c : Int} (h : instrOutcome s.params i = .reject c) : exec i s = .next (s.respond (.status c)) := by
  rw [exec_eq_perform, h]
  rfl

theorem exec_of_refuse {x : RefuseReason} (h : instrOutcome s.params i = .refuse x) : exec i s = .next (s.markRefused x) := by
  rw [exec_eq_perform, h]
  rfl

theorem exec_of_frame {f : List Byte} {r : Response} (h : instrOutcome s.params i = .frame f r) :
    exec i s = .next (s.startFrame f r) := by
  rw [exec_eq_perform, h]
  rfl

end

/-- Settles O17: the outcome is the frame. -/
theorem configureServoCompletes : Obligations.ConfigureServoCompletes :=
  fun _ _ en fwd _ hid hr => exec_of_frame (configureServoOutcome_of_range_le (Nat.lt_succ_of_le hid) en fwd hr)

/-- Settles O18: the outcome is the frame. -/
theorem setSpeedCompletes : Obligations.SetSpeedCompletes :=
  fun _ _ _ hid hv => exec_of_frame (setSpeedOutcome_of_speed_le (Nat.lt_succ_of_le hid) hv)

/-- Settles O19: the outcome is the frame, whose data bytes are the quotient and the remainder of the position by 128. -/
theorem setPositionCompletes : Obligations.SetPositionCompletes := by
  intro s id position hid hv
  rw [← splitPosition8_eq s.params hv]
  exact exec_of_frame (setPositionOutcome_of_position_le (Nat.lt_succ_of_le hid) hv)

/-- Settles O20: either outcome is the frame of the absolute position, with its command's byte. -/
theorem absoluteAndNeutralComplete : Obligations.AbsoluteAndNeutralComplete := by
  rintro s id position hid hlo hhi data rfl
  rw [← splitPositionAbs_eq s.params hhi]
  have ho := fun cmd => absOutcome_of_position_inside (p := s.params) (Nat.lt_succ_of_le hid) cmd ⟨hlo, hhi⟩
  exact ⟨exec_of_frame (ho _), exec_of_frame (ho _)⟩

/-- Settles O23: each of the five commands has the id as its target. -/
theorem invalidServoIdFirst : Obligations.InvalidServoIdFirst := by
  rintro s id hid t rfl
  have hreject : ∀ i : Instr, i.target = some id → exec i s = .next (s.respond (.status (-2))) :=
    fun i ht => exec_of_reject (instrOutcome_of_invalid_target ht hid)
  exact ⟨fun _ _ _ => hreject _ rfl, fun _ => hreject _ rfl, fun _ => hreject _ rfl, fun _ => hreject _ rfl,
    fun _ => hreject _ rfl⟩

/-- Settles O24: each outcome is the rejection with the code of R117. -/
theorem valueErrorsRejected : Obligations.ValueErrorsRejected := by
  intro s id v en fwd hid
  have hid := Nat.lt_succ_of_le hid
  refine ⟨fun hv => ?_, fun hr => ?_, fun hb => ?_⟩
  · have ho := fun cmd => absOutcome_of_position_outside (p := s.params) hid cmd hv
    exact ⟨exec_of_reject (ho _), exec_of_reject (ho _)⟩
  · exact exec_of_reject (configureServoOutcome_of_range_gt hid en fwd hr)
  · exact exec_of_reject (setServoNumberBaseNumberOutcome_of_base_gt hb)

/-- Settles O25: the outcome is the refusal of an operand out of its contract. -/
theorem outOfContractSetsMark : Obligations.OutOfContractSetsMark := by
  intro s id v hid
  have hid := Nat.lt_succ_of_le hid
  exact ⟨fun hv => exec_of_refuse (setSpeedOutcome_of_speed_gt hid hv),
    fun hv => exec_of_refuse (setPositionOutcome_of_position_gt hid hv)⟩

end Sys2Proof.Machine
end

section
/-!
PROOFS. The two broadcast commands and the query (41_broadcast_and_query.md R105 to R110): the outcome of each, and what a
step, a whole command or `exec` makes of it.
-/
namespace Sys2Proof

/-- The mask of R58 that checks `OP`, digit `E` and `V`. -/
theorem op_flags_and_argV_of_masked {w m : CmdWord} {op : Nat} (hm : m.toNat = op * 2 ^ 36) (h : w &&& 0xFF0000FFFF#40 = m) :
    opOf w = op ∧ flagsOf w = 0 ∧ argV w = 0 :=
  (selects_noV (n := "") hm w).mp (beq_iff_eq.mpr h)

end Sys2Proof

namespace Sys2Proof.Machine

/-! ### The outcomes (R105, R106, R108, R110) -/

theorem setServoNumberBaseNumberOutcome_of_base_le {p : Params} {base : Nat} (h : base ≤ p.baseMax.toNat) :
    setServoNumberBaseNumberOutcome p base = .frame (bFrame p (zext8 base)) (.status 0) :=
  if_pos ((baseValid_iff p base).mpr h)

/-- The answer is the servo-id check of R85. -/
theorem isValidServoIdOutcome_eq (id : Nat) : isValidServoIdOutcome id = .answer (decide (id < 128)) := rfl

/-! ### From the word to the response (R108 to R110) -/

/-- Settles O14: by the base number; no id is checked first. -/
theorem setServoNumberBaseNumberCommand : Obligations.SetServoNumberBaseNumberCommand := by
  intro s w rest h hw
  obtain ⟨hop, hz, hv⟩ := op_flags_and_argV_of_masked (op := 0x8) (by decide) hw
  have ho := outcome_of_readAs (.setServoNumberBaseNumber hop hz hv) s.params
  split_ifs with hb
  · exact step_of_reject h (ho.trans (setServoNumberBaseNumberOutcome_of_base_gt hb))
  · exact emits_of_frame h (ho.trans (setServoNumberBaseNumberOutcome_of_base_le (Nat.le_of_not_lt hb)))

/-- Settles O15: the word has one reading and no operand, so its outcome is the one frame. -/
theorem blinkServoNumberBaseNumberCommand : Obligations.BlinkServoNumberBaseNumberCommand := by
  intro s rest h
  have hd : decode 0x9000000000#40 = .ok .blinkServoNumberBaseNumber := by decide
  exact emits_of_frame h (outcome_of_decode hd)

/-- Settles O16: the outcome is the answer of the servo-id check. -/
theorem isValidServoIdCommand : Obligations.IsValidServoIdCommand := by
  intro s w rest h hw
  obtain ⟨hop, hz, hv⟩ := op_flags_and_argV_of_masked (op := 0xA) (by decide) hw
  have ho := outcome_of_readAs (.isValidServoId hop hz hv) s.params
  exact step_of_answer h (ho.trans (isValidServoIdOutcome_eq _))

/-! ### What `exec` answers (R108 to R110) -/

theorem exec_of_answer {s : State} {i : Instr} {b : Bool} (h : instrOutcome s.params i = .answer b) :
    exec i s = .next (s.respond (.bool b)) := by
  rw [exec_eq_perform, h]
  rfl

/-- Settles O21: the outcome is the frame, for either `BASE_MAX`. -/
theorem setServoNumberBaseNumberCompletes : Obligations.SetServoNumberBaseNumberCompletes :=
  fun _ _ hb => exec_of_frame (setServoNumberBaseNumberOutcome_of_base_le hb)

/-- Settles O22: the one outcome is the fixed frame, the other the answer of the servo-id check. -/
theorem blinkAndQueryComplete : Obligations.BlinkAndQueryComplete :=
  fun _ => ⟨exec_of_frame rfl, fun id => exec_of_answer (isValidServoIdOutcome_eq id)⟩

end Sys2Proof.Machine
end

section
/-!
PROOFS. Exceptions (60_exceptions.md): the causes of the validation errors and of the refusals (R117, R118), what a rejection
delivers (R116), and what a sink that does not accept holds (R123).
-/
namespace Sys2Proof

/-- Every operation has its row in the command map (R58). -/
theorem rowOf_mem_commandMap (i : Instr) : rowOf i ∈ commandMap := by cases i <;> simp [commandMap, rowOf]

/-- Either value of `ERR_BASE_NUMBER` is a code of R72. -/
theorem BaseError.toInt_cases (e : BaseError) : e.toInt = -2 ∨ e.toInt = -3 := by cases e <;> decide

end Sys2Proof

namespace Sys2Proof.Machine

/-! ### What a word's outcome says of the decoder's answer (R61, R119) -/

section
variable {p : Params} {w : CmdWord}

/-- A rejection comes from the validation of an instruction, so the word is read. -/
theorem outcome_eq_reject_iff {c : Int} : outcome p w = .reject c ↔ ∃ i, decode w = .ok i ∧ instrOutcome p i = .reject c := by
  cases hd : decode w with
  | ok i => simp [outcome_of_decode hd]
  | error x => simp [outcome_of_decode_error hd]

/-- A refusal is the decoder's or that of the instruction read. -/
theorem outcome_eq_refuse_iff {r : RefuseReason} :
    outcome p w = .refuse r ↔ decode w = .error r ∨ ∃ i, decode w = .ok i ∧ instrOutcome p i = .refuse r := by
  cases hd : decode w with
  | ok i => simp [outcome_of_decode hd]
  | error x => simp [outcome_of_decode_error hd]

/-- The decoder's two refusals, by `OP` and by the command map (R59, R60). -/
theorem decode_eq_error_iff {r : RefuseReason} : decode w = .error r ↔
    opOf w ∈ reservedOps ∧ r = .reservedOp ∨
    opOf w ∉ reservedOps ∧ (∀ row ∈ commandMap, row.selects w = false) ∧ r = .nonzeroUnusedField := by
  obtain ⟨i, hd, hop, hrow⟩ | ⟨hd, hop, -, -⟩ | ⟨hd, hop, hrow, -⟩ := decodingIsTotal w
  · have hmem := rowOf_mem_commandMap i
    have hselects : ¬ ∀ row ∈ commandMap, row.selects w = false := fun h =>
      Bool.false_ne_true ((h _ hmem).symm.trans ((hrow _ hmem).mpr rfl))
    simp [hd, hop, hselects]
  · simp only [hd, Except.error.injEq, hop, true_and, not_true, false_and, or_false, eq_comm (a := r)]
  · simp only [hd, Except.error.injEq, hop, false_and, not_false_eq_true, true_and, and_iff_right hrow, false_or,
      eq_comm (a := r)]

end

/-! ### What a check's outcome says of the operands (R85 to R92, R117) -/

section
variable {p : Params} {id : Nat} {c : Int}

/-- The id check comes first, and rejects with its own code (R85, R119). -/
theorem servoChecked_eq_reject_iff {o : CmdOutcome} :
    servoChecked id o = .reject c ↔ 128 ≤ id ∧ c = -2 ∨ id < 128 ∧ o = .reject c := by
  rcases Nat.lt_or_ge id 128 with hid | hid
  · simp [servoChecked_of_valid hid, hid, Nat.not_le.mpr hid]
  · simp [servoChecked_of_invalid hid, hid, Nat.not_lt.mpr hid, eq_comm]

/-- A command whose only check is the id's, its other operand being held to a contract, has one cause of rejection. -/
theorem servoChecked_contract_eq_reject_iff {b : Prop} [Decidable b] {f : List Byte} {r : Response} {x : RefuseReason} :
    servoChecked id (if b then .frame f r else .refuse x) = .reject c ↔ 128 ≤ id ∧ c = -2 := by
  rw [servoChecked_eq_reject_iff]
  split_ifs <;> simp

/-- A value check that fails gives its error's code. -/
theorem checked_eq_reject_iff {b : Prop} [Decidable b] {f : List Byte} {r : Response} {code : Int} :
    (if b then CmdOutcome.frame f r else .reject code) = .reject c ↔ ¬ b ∧ c = code := by
  split_ifs with hb <;> simp [hb, eq_comm]

theorem configureServoOutcome_eq_reject_iff {en fwd : Bool} {range : Nat} :
    configureServoOutcome p id en fwd range = .reject c ↔ 128 ≤ id ∧ c = -2 ∨ id < 128 ∧ 31 < range ∧ c = -3 := by
  rw [configureServoOutcome, servoChecked_eq_reject_iff, servoFrame, checked_eq_reject_iff, rangeMax_eq, Nat.not_le, errRange]

theorem absOutcome_eq_reject_iff {cmd : Byte} {position : Nat} : absOutcome p cmd id position = .reject c ↔
    128 ≤ id ∧ c = -2 ∨ id < 128 ∧ (position < 500 ∨ 5500 < position) ∧ c = -3 := by
  rw [absOutcome, servoChecked_eq_reject_iff, servoFrame, checked_eq_reject_iff, absValid_iff, not_and_or, Nat.not_le,
    Nat.not_le, errPosition]

theorem setServoNumberBaseNumberOutcome_eq_reject_iff {base : Nat} :
    setServoNumberBaseNumberOutcome p base = .reject c ↔ p.baseMax.toNat < base ∧ c = p.errBaseNumber.toInt := by
  rw [setServoNumberBaseNumberOutcome, checked_eq_reject_iff, baseValid_iff, Nat.not_le, errBaseNumber]

end

/-- Settles O28: the word is read, and its instruction's outcome is the rejection; by the instruction. -/
theorem rejectionCauses : Obligations.RejectionCauses := by
  intro p w c
  rw [outcome_eq_reject_iff]
  refine exists_congr fun i => and_congr_right fun _ => ?_
  cases i with
  | configureServo => exact configureServoOutcome_eq_reject_iff
  | setSpeed | setPosition => exact servoChecked_contract_eq_reject_iff
  | setPositionAbsolute | setNeutral => exact absOutcome_eq_reject_iff
  | setServoNumberBaseNumber => exact setServoNumberBaseNumberOutcome_eq_reject_iff
  | blinkServoNumberBaseNumber | isValidServoId => exact iff_of_false nofun id

/-- Every cause of R117 has the code -2 or -3. -/
theorem code_of_outcome_reject {p : Params} {w : CmdWord} {c : Int} (h : outcome p w = .reject c) : c = -2 ∨ c = -3 := by
  obtain ⟨i, -, hcause⟩ := (rejectionCauses p w c).mp h
  cases i with
  | configureServo | setPositionAbsolute | setNeutral =>
    obtain ⟨-, hc⟩ | ⟨-, -, hc⟩ := hcause
    · exact .inl hc
    · exact .inr hc
  | setSpeed | setPosition => exact .inl hcause.2
  | setServoNumberBaseNumber => exact hcause.2 ▸ p.errBaseNumber.toInt_cases
  | blinkServoNumberBaseNumber | isValidServoId => exact hcause.elim

/-- Settles O27: the code is that of its cause, and the step answers the word. -/
theorem rejectionOnlyResponds : Obligations.RejectionOnlyResponds :=
  fun _ _ _ _ h ho => ⟨code_of_outcome_reject ho, step_of_reject h ho⟩

/-! ### The refusals (R118) -/

/-- The operands no rule gives a meaning, of a command whose id is valid (R88, R89). -/
inductive OutOfContract : Instr → Prop where
  | setSpeed {id speed : Nat} (hid : id < 128) (hs : 127 < speed) : OutOfContract (.setSpeed id speed)
  | setPosition {id position : Nat} (hid : id < 128) (hv : 255 < position) : OutOfContract (.setPosition id position)

section
variable {p : Params} {r : RefuseReason}

/-- A refused command has passed its id check (R85, R119). -/
theorem servoChecked_eq_refuse {id : Nat} {o : CmdOutcome} (h : servoChecked id o = .refuse r) : id < 128 ∧ o = .refuse r := by
  rcases Nat.lt_or_ge id 128 with hid | hid
  · exact ⟨hid, servoChecked_of_valid hid o ▸ h⟩
  · rw [servoChecked_of_invalid hid] at h
    cases h

/-- What is refused is the operand out of its contract, never the id (R88, R89). -/
theorem servoChecked_contract_eq_refuse {id : Nat} {b : Prop} [Decidable b] {f : List Byte} {a : Response} {x : RefuseReason}
    (h : servoChecked id (if b then .frame f a else .refuse x) = .refuse r) : id < 128 ∧ ¬ b ∧ r = x := by
  obtain ⟨hid, h⟩ := servoChecked_eq_refuse h
  split at h <;> cases h
  exact ⟨hid, ‹_›, rfl⟩

/-- A check that ends in a frame or a rejection refuses nothing. -/
theorem checked_ne_refuse {b : Prop} [Decidable b] {f : List Byte} {a : Response} {code : Int} :
    (if b then CmdOutcome.frame f a else .reject code) ≠ .refuse r := by
  split_ifs <;> nofun

theorem instrOutcome_eq_refuse_iff {i : Instr} :
    instrOutcome p i = .refuse r ↔ OutOfContract i ∧ r = .operandOutOfContract := by
  constructor
  · intro h
    cases i with
    | configureServo | setPositionAbsolute | setNeutral => exact absurd (servoChecked_eq_refuse h).2 checked_ne_refuse
    | setSpeed =>
      obtain ⟨hid, hs, rfl⟩ := servoChecked_contract_eq_refuse h
      exact ⟨.setSpeed hid (Nat.lt_of_not_le hs), rfl⟩
    | setPosition =>
      obtain ⟨hid, hv, rfl⟩ := servoChecked_contract_eq_refuse h
      exact ⟨.setPosition hid (Nat.lt_of_not_le hv), rfl⟩
    | setServoNumberBaseNumber => exact absurd h checked_ne_refuse
    | blinkServoNumberBaseNumber | isValidServoId => cases h
  · rintro ⟨hi, rfl⟩
    cases hi with
    | setSpeed hid hs => exact setSpeedOutcome_of_speed_gt hid hs
    | setPosition hid hv => exact setPositionOutcome_of_position_gt hid hv

end

/-- With parameters that break R3 the plan is to stop, whoever would move. -/
theorem plan_of_invalid {s : State} (h : s.params.valid = false) : plan s = .stop .badParameters :=
  if_neg (Bool.eq_false_iff.mp h)

/-- Settles O29: the decoder's refusals, then those of the instruction read; bad parameters stop every step. -/
theorem refusalCauses : Obligations.RefusalCauses := by
  refine ⟨fun p w r => ?_, fun s h => congrArg carryOut (plan_of_invalid h)⟩
  rw [outcome_eq_refuse_iff, decode_eq_error_iff, or_assoc]
  refine or_congr_right (or_congr_right ?_)
  simp only [instrOutcome_eq_refuse_iff]
  constructor
  · rintro ⟨i, hd, hi, hr⟩
    cases hi with
    | setSpeed hid hs => exact .inl ⟨_, _, hd, hid, hs, hr⟩
    | setPosition hid hv => exact .inr ⟨_, _, hd, hid, hv, hr⟩
  · rintro (⟨id, speed, hd, hid, hs, hr⟩ | ⟨id, position, hd, hid, hv, hr⟩)
    · exact ⟨_, hd, .setSpeed hid hs, hr⟩
    · exact ⟨_, hd, .setPosition hid hv, hr⟩

/-! ### The sink's wait (R123) -/

section
variable {s : State}

/-- The sink is offered something only where the framer waits for it: `SinkInit` in `INIT`, a byte in `BUSY`. -/
theorem State.Hung.phase_cases (h : s.Hung) : s.phase = .init ∨ s.phase = .busy ∧ s.idx < s.frame.length := by
  obtain ⟨-, -, hvalid⟩ := h
  simpa [State.snkInitValid, State.snkByteValid] using hvalid

theorem framerPlan_of_hung (h : s.Hung) : framerPlan s = .move s := by
  have ⟨_, hk, _⟩ := h
  obtain hp | ⟨hp, hi⟩ := h.phase_cases
  · exact framerPlan_init_stalled hp hk
  · exact framerPlan_busy_stalled hp hi hk

/-- A hung block's next move is the framer's, and it holds. -/
theorem step_of_hung (hv : s.params.valid = true) (hr : s.refused = none) (h : s.Hung) : step s = .next s := by
  have ⟨hs, _, _⟩ := h
  have hp : s.phase ≠ .reset := by obtain hp | ⟨hp, -⟩ := h.phase_cases <;> simp [hp]
  rw [step_framer hv hr (s.nextMove_nil hs hp), s.popMove_of_nil hs, framerPlan_of_hung h, carryOut_move]

/-- A state its own step answers is never left. -/
theorem run_of_step_self (h : step s = .next s) (n : Nat) : run n s = .next s := by
  induction n with
  | zero => rfl
  | succ n ih => rw [run_succ h, ih]

end

/-- Settles O46: the step of a hang answers the same state. -/
theorem hangStaysAsItIs : Obligations.HangStaysAsItIs :=
  fun n _ hv hr h => run_of_step_self (step_of_hung hv hr h) n

end Sys2Proof.Machine
end

section
/-!
PROOFS. Reset and start-up (70_reset_and_hazards.md R135 to R140): the two transitions of a start-up, and the wait between
them under every schedule.
-/
namespace Sys2Proof.Machine

/-! ### The steps of a reset and a start-up (R26) -/

section
variable {s : State}

/-- The platform asserts `rst` (R135). -/
theorem step_assertReset (hv : s.params.valid = true) (hr : s.refused = none) (hm : s.nextMove = .assertReset) :
    step s = .next s.popMove.assertReset := by
  have hx := step_env hv hr (by rw [hm]; decide)
  rwa [hm] at hx

/-- The platform releases `rst` (R136). -/
theorem step_releaseReset (hv : s.params.valid = true) (hr : s.refused = none) (hm : s.nextMove = .releaseReset) :
    step s = .next s.popMove.releaseReset := by
  have hx := step_env hv hr (by rw [hm]; decide)
  rwa [hm] at hx

/-- The sink accepts `SinkInit(BAUD)` (R137). -/
theorem step_acceptInit (hv : s.params.valid = true) (hr : s.refused = none) (hp : s.phase = .init)
    (hm : s.nextMove = .framer) (hk : s.snkReady = true) : step s = .next s.popMove.acceptInit := by
  rw [step_framer hv hr hm, framerPlan_init_ready (s := s.popMove) hp hk, carryOut_move]

/-- The sink does not accept it, and the framer waits (R123). -/
theorem step_init_stalled (hv : s.params.valid = true) (hr : s.refused = none) (hp : s.phase = .init)
    (hm : s.nextMove = .framer) (hk : s.snkReady = false) : step s = .next s.popMove := by
  rw [step_framer hv hr hm, framerPlan_init_stalled (s := s.popMove) hp hk, carryOut_move]

end

/-! ### The wait for the sink (R136, R140) -/

/-- The environment moves the phase by asserting reset or by releasing an asserted one, and in no other way (R26). -/
theorem State.envMove_phase_eq {s : State} {m : Move} (hp : s.phase ≠ .reset) (hm : m ≠ .assertReset) :
    (s.envMove m).phase = s.phase := by
  cases m with
  | assertReset => exact absurd rfl hm
  | releaseReset => rw [State.envMove, s.releaseReset_of_not_reset hp]
  | _ => rfl

/-- Nothing is added to the script, so no reset is to come after a step either. -/
theorem State.NoReset.step {s t : State} (h : s.NoReset) (hst : step s = .next t) : t.NoReset :=
  fun hm => h (List.mem_of_mem_tail (step_script hst ▸ hm))

/-- `t` is in the wait for the sink that the release of `rst` from `s` began, with no reset to come: the rate is loaded and
nothing has been accepted or answered since (R136, R140). -/
structure State.AwaitsSink (s t : State) : Prop where
  noReset : t.NoReset
  phase : t.phase = .init
  initDone : t.initDone = false
  baud_eq : t.baud = if s.cfgBaudGiven then s.cfgBaud else 40000#32
  sinkTrace_eq : t.sinkTrace = s.sinkTrace
  rspTrace_eq : t.rspTrace = s.rspTrace
  taken_eq : t.taken = s.taken

/-- The release of `rst` begins the wait. -/
theorem State.AwaitsSink.of_release {s u : State} (hp : s.phase = .reset) (hm : s.nextMove = .releaseReset)
    (hst : step s = .next u) (hu : u.NoReset) : s.AwaitsSink u := by
  obtain ⟨hv, hr, -⟩ := step_cases hst
  rw [step_releaseReset hv hr hm, s.popMove.releaseReset_of_reset hp] at hst
  cases hst
  exact ⟨hu, rfl, rfl, rfl, rfl, rfl, rfl⟩

/-- A step of the wait goes on waiting, whichever agent moves, or it is the sink's acceptance of `SinkInit(BAUD)`. -/
theorem State.AwaitsSink.step {s t v : State} (h : s.AwaitsSink t) (hst : step t = .next v) :
    s.AwaitsSink v ∨ v = t.popMove.acceptInit := by
  have hv : v.NoReset := h.noReset.step hst
  have hp : t.popMove.phase = .init := h.phase
  have hreset : t.popMove.phase ≠ .reset := by rw [hp]; decide
  obtain ⟨-, -, ⟨-, rfl⟩ | ⟨-, hf⟩⟩ := step_cases hst
  · have hbaud : (t.popMove.envMove t.nextMove).baud = t.baud := by
      by_contra hb
      exact hreset (State.released_of_envMove_baud hb).1
    exact .inl {
      noReset := hv
      phase := (State.envMove_phase_eq hreset h.noReset.nextMove_ne).trans hp
      initDone := State.envMove_initDone_eq_false h.initDone
      baud_eq := hbaud.trans h.baud_eq
      sinkTrace_eq := (State.envMove_sinkTrace _ _).trans h.sinkTrace_eq
      rspTrace_eq := (State.envMove_rspTrace _ _).trans h.rspTrace_eq
      taken_eq := (State.envMove_taken _ _).trans h.taken_eq }
  · cases hf with
    | hold => exact .inl ⟨hv, hp, h.initDone, h.baud_eq, h.sinkTrace_eq, h.rspTrace_eq, h.taken_eq⟩
    | initAccepted => exact .inr rfl
    | byteAccepted hx | delivered hx | accepted hx => rw [hp] at hx; cases hx

/-- The first state of a run of the wait in which `INIT_DONE` is 1 is the acceptance of `SinkInit(BAUD)` at a state of the
wait. -/
theorem State.AwaitsSink.run_first {s t : State} {n : Nat} : ∀ {u : State}, s.AwaitsSink u → run n u = .next t →
    t.initDone = true → (∀ m < n, ∀ v, run m u = .next v → v.initDone = false) →
    ∃ v, s.AwaitsSink v ∧ t = v.popMove.acceptInit := by
  induction n with
  | zero =>
    intro u h hrun ht _
    cases hrun
    rw [h.initDone] at ht
    cases ht
  | succ n ih =>
    intro u h hrun ht hfirst
    cases hst : Machine.step u with
    | fault f => cases f
    | refused r => simp only [run, hst] at hrun; cases hrun
    | next v =>
      rw [run_succ hst] at hrun
      have hfirst' : ∀ m < n, ∀ x, run m v = .next x → x.initDone = false := fun m hm x hx =>
        hfirst (m + 1) (Nat.succ_lt_succ hm) x ((run_succ hst).trans hx)
      obtain hv | rfl := h.step hst
      · exact ih hv hrun ht hfirst'
      · cases n with
        | zero => cases hrun; exact ⟨u, h, rfl⟩
        | succ n => exact absurd (hfirst' 0 n.succ_pos _ rfl) (by simp)

/-- Settles O42: the wait the release begins ends with the acceptance of `SinkInit(BAUD)`, which adds its one event. -/
theorem startUpState : Obligations.StartUpState := by
  intro n s u t hp hm hst hu hrun ht hfirst
  obtain ⟨v, hv, rfl⟩ := (State.AwaitsSink.of_release hp hm hst hu).run_first hrun ht hfirst
  refine ⟨hv.baud_eq, rfl, rfl, ?_, hv.rspTrace_eq, hv.taken_eq⟩
  simp [hv.sinkTrace_eq]

/-! ### The single steps, field by field -/

/-- Settles O39: what `assertReset` writes, and that no output belongs to `RESET`. -/
theorem resetEndsEverything : Obligations.ResetEndsEverything := by
  intro s hv hr hm
  exact ⟨_, step_assertReset hv hr hm, rfl, rfl, rfl, rfl, rfl, rfl, rfl, rfl, rfl, rfl, rfl, rfl, rfl, rfl, rfl, rfl⟩

/-- Settles O40: the release from `RESET` writes `BAUD`, `INIT_DONE` and the phase. -/
theorem releaseLoadsBaud : Obligations.ReleaseLoadsBaud := by
  intro s hv hr hp hm
  refine ⟨_, step_releaseReset hv hr hm, ?_⟩
  rw [s.popMove.releaseReset_of_reset hp]
  exact ⟨rfl, rfl, rfl, rfl⟩

/-- Settles O41: by the sink's readiness. -/
theorem sinkInitOpensThePort : Obligations.SinkInitOpensThePort := by
  intro s hv hr hp hm
  refine ⟨fun hk => ⟨_, step_acceptInit hv hr hp hm hk, rfl, rfl⟩, fun hk => ⟨?_, step_init_stalled hv hr hp hm hk⟩⟩
  simp [State.cmdReady, hp]

/-- Settles O60: the release, and then the acceptance of `SinkInit(BAUD)`. -/
theorem startUpInTwoSteps : Obligations.StartUpInTwoSteps := by
  intro s hv hr hp hs hk
  have hrelease := step_releaseReset hv hr (s.nextMove_nil_reset hs hp)
  rw [s.popMove_of_nil hs, s.releaseReset_of_reset hp] at hrelease
  refine ⟨_, (run_succ hrelease).trans (run_succ (n := 0) (step_acceptInit hv hr rfl ?_ hk)), rfl, rfl, rfl, rfl, rfl, rfl⟩
  exact State.nextMove_nil _ hs (by simp)

end Sys2Proof.Machine
end

section
/-!
PROOFS. The two broadcast frames a receiver cannot tell apart (70_reset_and_hazards.md R150): the bytes of each broadcast
command's word.
-/
namespace Sys2Proof.Machine

theorem wordBytes_of_frame {p : Params} {w : CmdWord} {f : List Byte} {r : Response} (h : outcome p w = .frame f r) :
    wordBytes p w = f :=
  congrArg CmdOutcome.bytes h

/-- The frame of a base number within `BASE_MAX` (R108). -/
theorem wordBytes_setServoNumberBaseNumber {p : Params} {base : Nat} (hb : base ≤ p.baseMax.toNat) :
    wordBytes p (encode (.setServoNumberBaseNumber base)) = bFrame p (zext8 base) := by
  have hle : base ≤ 16 := hb.trans p.baseMax.toNat_le
  have hwf : (Instr.setServoNumberBaseNumber base).wf = true := (fitsArg_iff base).mpr (by omega)
  exact wordBytes_of_frame ((outcome_of_decode (decode_encode hwf)).trans (setServoNumberBaseNumberOutcome_of_base_le hb))

/-- The frame of the blink command (R109). -/
theorem wordBytes_blinkServoNumberBaseNumber (p : Params) :
    wordBytes p (encode .blinkServoNumberBaseNumber) = bFrame p p.blinkCode :=
  wordBytes_of_frame (outcome_of_decode (decode_encode rfl))

/-- Settles O37: both frames are format B, and RB0's `BLINK_CODE` is the byte of base number 16. -/
theorem baseSixteenEqualsBlink : Obligations.BaseSixteenEqualsBlink := by
  have hcode : zext8 16 = Params.rb0.blinkCode := rfl
  have hbase : wordBytes Params.rb0 0x8000100000#40 = bFrame Params.rb0 (zext8 16) :=
    wordBytes_setServoNumberBaseNumber (p := Params.rb0) (base := 16) (by decide)
  have hblink : wordBytes Params.rb0 0x9000000000#40 = bFrame Params.rb0 Params.rb0.blinkCode :=
    wordBytes_blinkServoNumberBaseNumber Params.rb0
  exact ⟨(hbase.trans (congrArg (bFrame _) hcode)).trans hblink.symm, hblink⟩

end Sys2Proof.Machine
end
